-- ==== Sys2Proof/Word.lean ====
section
/-! DEFINITION. The word types of the machine and their plainest arithmetic (spec/00_scope.md R6). -/
namespace Sys2Proof

/-- One byte. -/
abbrev Byte := BitVec 8
/-- A 64-bit register value. -/
abbrev W64 := BitVec 64
/-- The content of a v register, a wide port or a wide latch (spec/03_core.md R74): 2,048 bits. -/
abbrev Vec := BitVec 2048

/-- `bits(x, hi, lo)` of spec/06_encoding.md R169, as a natural number. -/
def bitsOf (x hi lo : Nat) : Nat := (x >>> lo) % 2 ^ (hi + 1 - lo)

/-- ⌈a / b⌉ for b > 0. -/
def ceilDiv (a b : Nat) : Nat := (a + b - 1) / b

end Sys2Proof
end

