-- ==== Sys2Proof/Config.lean ====
section
/-! DEFINITION. Constants that the spec leaves to the part: free values, with no body, so that nothing can be proved of their value (log
entry 1 lists them). -/
namespace Sys2Proof.Config

/-- The wall-clock cycles that an untimetabled action takes: the n-th free value of a run (spec/15_region_scheduler.md, whose decisions are
not timetabled; log entry 8). -/
opaque wallDelay : Nat → Nat

/-- The measurement of the ROM (R397 index 1): fixed by the part (log entry 10). -/
opaque romDigest : BitVec 256

/-- The ECC syndrome that a DATA_UNCORRECTABLE record carries (spec/16_faults_recovery.md R354), which the spec does not give: the n-th free
value of a run (log entry 11). -/
opaque syndrome : Nat → BitVec 64

/-- How long after its probe an H-die takes its decision: the n-th free value of a run, used within the 120 stitches that
spec/02_stitch_time.md R51 allows (log entry 12). -/
opaque decision : Nat → Nat

/-- How long after the close the journal is applied: the n-th free value of a run, used within the 640 stitches that
spec/16_faults_recovery.md R362 allows (log entry 13). -/
opaque applyAfter : Nat → Nat

/-- The key set, before it is brought into 1 to 31, that the service processors give a protected port direction: the n-th free value of a run
(spec/18_links_host_boot.md R387; log entry 10). -/
opaque keySet : Nat → Nat

/-- The bytes over which a measurement is taken (R397): its index, and the numbers that it covers. The spec gives no layout (log entry 10). -/
opaque measureBytes : Nat → List Nat → List Byte

/-- The revision of the device, which engine-state records of a save area carry (spec/15_region_scheduler.md R347; log entry 14). -/
opaque revision : BitVec 64

/-- The package and port to which the board cables the port of a physical H-die (spec/16_faults_recovery.md R371; spec/18_links_host_boot.md R379;
log entry 54). -/
opaque partner : Nat → Nat × Nat

/-- Does a package lie in the clock domain of this one (R380; log entry 54)? -/
opaque inDomain : Nat → Bool

/-- What the service processors choose for a logical die that is lost once a column is darned: a remote spare, with its package and the latency
measured, or none, which excludes the die: the n-th free value of a run (spec/16_faults_recovery.md R368 row 6; log entry 54). -/
opaque remoteSpare : Nat → Option (Nat × Nat)

/-- How long after the arrival of a group the first beat with a flit in it lands: the n-th free value of a run (R389; log entry 30). -/
opaque beatLands : Nat → Nat

/-- The bytes that another package sends: the i-th byte of what comes with the n-th free value of a run (spec/11_puzil.md R283, R284;
spec/10_transfer_sync_ops.md R242; log entry 30). -/
opaque awayByte : Nat → Nat → Byte

/-- Can the parts of a multi-package region be placed on the other packages: the answer of their schedulers, the n-th free value of a run
(spec/18_links_host_boot.md R385; log entry 30). -/
opaque partsFit : Nat → Bool

/-- Does a unit, by its id, clear its bit of the purge tree later than the end of the sweep: the n-th free value of a run
(spec/15_region_scheduler.md R349; log entry 8). -/
opaque unitLate : Nat → Nat → Bool

/-- The five flits of a group that a port sends, idle flits included, by port, group counter and the bytes of the beats that leave by the port in the
present stitch (R388; log entry 30). -/
opaque groupFlits : Nat → Nat → List Byte → List Byte

/-- Has a beat or chunk that comes in by a port a flit in a group: the n-th free value of a run, by its place among those that may (R389; log entry
30). -/
opaque inGroup : Nat → Nat → Bool

/-- What the IOMMU of a control die makes of a device's address: a host physical address, or a refusal; the n-th free value of a run (R393; log entry
5). -/
opaque iommu : Nat → Nat → Option Nat

/-- The type, offset and length that a 16-byte section entry of a firmware image names (R394; log entry 39). -/
opaque sectionEntry : List Byte → Nat × Nat × Nat

/-- Where host firmware is loaded: the far physical address of the n-th section that holds it (R395; log entry 39). -/
opaque firmwareAt : Nat → Nat

/-- The certificate chain of slot 0, for the device identity key fused at manufacture (R397; log entry 39). -/
opaque certChain : List Byte

/-- A signature made with the device identity key: the n-th free value of a run (R397; log entry 39). -/
opaque identitySign : Nat → BitVec 3072

/-- A service processor's share of a key exchange, on secp384r1: the n-th free value of a run (R397; log entry 39). -/
opaque exchangeShare : Nat → BitVec 768

end Sys2Proof.Config
end

