-- ==== Sys2Proof/Syntax.lean ====
section
/-! DEFINITION. The syntax of the machine: one constructor of `Instr` for each row of spec/opcode_table.json.
Encoded rows carry the fields of their encoding (spec/06_encoding.md R146 to R160; Puzil op words, spec/11_puzil.md R278 to R280);
event rows (spec/95_what_each_step_holds.md) carry the names of the part of the machine they act on. -/
namespace Sys2Proof

/-- The twelve function units, in the order of their numbers (spec/03_core.md R72). -/
inductive UnitId where
  | ia0 | ia1 | im | ls | vx | vp | mx | xf | br | sy | tg | cr
deriving DecidableEq, Repr

/-- The two integer units, which share one operation set (spec/03_core.md R72). -/
inductive IaUnit where
  | ia0 | ia1
deriving DecidableEq, Repr

/-- The units with a second latch `.h` (spec/06_encoding.md R154). -/
inductive HiUnit where
  | im | vp
deriving DecidableEq, Repr

/-- The operations of ia0 and ia1, by the opcode map of spec/06_encoding.md R156. -/
inductive IaOp where
  | add | sub | and | or | xor | shl | shr | sra | sel | cmpeq | cmplt | cmpltu | min | max | andn | rotl | minu | maxu | cmpne | cmpge | cmpgeu | bfx | bfi | clz | ctz | popc | pset
deriving DecidableEq, Repr

/-- The operations of im, by the opcode map of spec/06_encoding.md R156. -/
inductive ImOp where
  | mul | mulh | mulhu | div | divu | rem | remu
deriving DecidableEq, Repr

/-- The operations of ls, by the opcode map of spec/06_encoding.md R156. -/
inductive LsOp where
  | ld8 | ld8u | ld16 | ld16u | ld32 | ld32u | ld64 | ld256 | st8 | st16 | st32 | st64 | st256 | aadd | aand | aor | axor | amin | amax | aminu | amaxu | axchg | acas | afadd | afmin | afmax
deriving DecidableEq, Repr

/-- The operations of vx, by the opcode map of spec/06_encoding.md R156. -/
inductive VxOp where
  | fadd | fsub | fmul | fma | fms | fnma | fmin | fmax | add | sub | and | or | xor | max | fabs | fneg | fdiv | fsqrt | fceq | fclt | fcle | mul | mulh | andn | shl | shr | sra | min | minu | maxu | adds | subs | addsu | subsu | ceq | clt | cltu
deriving DecidableEq, Repr

/-- The operations of vp, by the opcode map of spec/06_encoding.md R156. -/
inductive VpOp where
  | perm | bcast | slideup | slidedn | cvt | rsum | rmax | rmin | mand | mor | mxor | mnot | mpop | iota | rot | ilv | dilv | compress | expand | cvtEf | qblk | dqblk | rbsum | mfirst
deriving DecidableEq, Repr

/-- The operations of mx, by the opcode map of spec/06_encoding.md R156. -/
inductive MxOp where
  | mma | mmas | zero | rrow | rcol | wrow | wcol | load | store | commit | wait | status
deriving DecidableEq, Repr

/-- The operations of xf, by the opcode map of spec/06_encoding.md R156. -/
inductive XfOp where
  | send | recv | getn | putn | getf | putf | gathf | scatf | amon | flush | commit | wait
deriving DecidableEq, Repr

/-- The operations of br, by the opcode map of spec/06_encoding.md R156. -/
inductive BrOp where
  | jmp | jr | bz | bnz | bltz | bgez | beq | call | callr | ret | loop
deriving DecidableEq, Repr

/-- The operations of sy, by the opcode map of spec/06_encoding.md R156. -/
inductive SyOp where
  | sync | arrive | waitrel | halt | tfence | phint | cdopen | cdclose | ctrig | chk | guard | watch | brk | sysreq
deriving DecidableEq, Repr

/-- The operations of tg, by the opcode map of spec/06_encoding.md R156. -/
inductive TgOp where
  | look | set | inv | read
deriving DecidableEq, Repr

/-- The operations of cr, by the opcode map of spec/06_encoding.md R156. -/
inductive CrOp where
  | rd | wr
deriving DecidableEq, Repr

/-- An operation of some unit: what a trigger port starts (spec/03_core.md R66). -/
inductive Op where
  | ia (u : IaUnit) (o : IaOp)
  | im (o : ImOp)
  | ls (o : LsOp)
  | vx (o : VxOp)
  | vp (o : VpOp)
  | mx (o : MxOp)
  | xf (o : XfOp)
  | br (o : BrOp)
  | sy (o : SyOp)
  | tg (o : TgOp)
  | cr (o : CrOp)
deriving DecidableEq, Repr

/-- The source of a transport move (spec/06_encoding.md R154). `imm` is the short immediate SRC - 192, in 7 bits. -/
inductive Src where
  | g (n : Fin 32) | v (n : Fin 32) | p (n : Fin 8) | r (u : UnitId) | h (u : HiUnit) | imm (x : BitVec 7)
deriving DecidableEq, Repr

/-- The source of a short transport (spec/06_encoding.md R147). -/
inductive ShortSrc where
  | g (n : Fin 16) | r (u : UnitId)
deriving DecidableEq, Repr

/-- A destination that is not a trigger (spec/06_encoding.md R155): an operand port o0, o1 or o2, or a register. -/
inductive PlainDst where
  | port (u : UnitId) (k : Fin 3) | g (n : Fin 32) | v (n : Fin 32) | p (n : Fin 8)
deriving DecidableEq, Repr

/-- A destination of a short transport that is not a trigger (spec/06_encoding.md R147). -/
inductive ShortDst where
  | g (n : Fin 32) | v (n : Fin 16) | port (u : UnitId) (k : Fin 3)
deriving DecidableEq, Repr

/-- Any destination of the 32-bit and long formats (spec/06_encoding.md R155). -/
inductive Dst where
  | plain (d : PlainDst) | trig (o : Op)
deriving DecidableEq, Repr

/-- POS of a long immediate (spec/06_encoding.md R152). -/
inductive LitPos where
  | signExt | zeroExt | high
deriving DecidableEq, Repr

/-- The two ends of the panel, where the control dies and their service processors are (spec/14_system_state.md R308). -/
inductive Side where
  | west | east
deriving DecidableEq, Repr

/-- A vote of the neighbour's service processor, or the operator's choice: for one of the two verdicts, or for neither
(spec/16_faults_recovery.md R367). -/
inductive Ballot where
  | west | east | neither
deriving DecidableEq, Repr

/-- A verdict of a service processor: ROW, UNIT, ACTION, REGIONS (spec/16_faults_recovery.md R366). -/
structure Verdict where
  row     : Nat
  unit    : Nat
  action  : Nat
  regions : List Nat
deriving DecidableEq, Repr

/-- A request of SPDM to a service processor (spec/18_links_host_boot.md R397): measurements by their index, which the answer may sign; the certificate
chain of a slot; a challenge to the key of a slot; the exchange that opens a secured session, with the requester's share; the end of that session;
another, by its code. -/
inductive SpdmReq where
  | measurements (n : Nat) (signed : Bool)
  | certificate (slot : Nat)
  | challenge (slot : Nat)
  | keyExchange (share : List (BitVec 8))
  | endSession
  | other (code : Nat)
deriving DecidableEq, Repr

/-- A key for the next slot of a port direction, with the group counter at which both ends have agreed to take it (spec/18_links_host_boot.md R390). -/
structure NextKey where
  key    : BitVec 256
  agreed : Nat
deriving DecidableEq, Repr

/-- The instructions and events of the machine, one constructor a row of spec/opcode_table.json, in the table's order.
In an encoded row `e` is the E bit, `src` the source, `q`, `k` and `z` the M, MSEL and Z fields, `m` the MOD field, `p` the
post-increment, `w` the width of an atomic, `acq` and `rel` the ordering modifiers. In an event row `rg` is a region number, `c`
a region-relative core index, `x` a transfer of that core, `j` a beat, `b` a bank, `pk` a physical core. -/
inductive Instr where
  /-- BUNDLE_ISSUE (R144): In a stitch in which it issues, a core decodes the bundle at its next address and issues all of its moves together, after the checks of R64. -/
  | bundleIssue (rg : Nat) (c : Nat)
  /-- IDLE_END (R34): The idle count of a core runs out, and the core issues again. -/
  | idleEnd (rg : Nat) (c : Nat)
  /-- LANDING (R89): An in-flight landing record reaches zero stitches remaining, and its value lands in its latch, register or write-back destination. -/
  | landing (rg : Nat) (c : Nat)
  /-- BANK_SLOT (R118): A bank-access record reaches its slot and reads or writes its scratchpad bank; a load or atomic then becomes a landing record. -/
  | bankSlot (rg : Nat) (c : Nat) (b : Nat)
  /-- BRANCH_REDIRECT (R179): A taken branch's redirect falls due, and the next bundle issues from its target. -/
  | branchRedirect (rg : Nat) (c : Nat)
  /-- DRAWSTRING_RELEASE (R39): Dr stitches after the last member arrival, the drawstring releases: SSC is zeroed, pending arrivals are cleared, waiting cores issue, and guards lose EN. -/
  | drawstringRelease (rg : Nat)
  /-- HOLD (R45): At h = c + Dh the region freezes with all in-flight state intact. -/
  | hold (rg : Nat)
  /-- THAW (R46): A write of CMD bit 0 thaws a held region whose causes are all resolved, and the region issues its bundle of stitch h. -/
  | thaw (rg : Nat)
  /-- DEBUG_REQUEST (R42): A write of CMD bit 1 sends a debug request, which the segment root registers as a DEBUG cause. -/
  | debugRequest (rg : Nat)
  /-- ACKNOWLEDGE (R312): A write of CMD bit 2 resolves every recorded DEBUG, ARITH, GUARD, WATCH and BREAK cause. -/
  | acknowledge (rg : Nat)
  /-- PREEMPT_ARM (R58): Dr stitches after a pre-emption request registers, the region becomes armed on every core. -/
  | preemptArm (rg : Nat)
  /-- PREEMPT_FORCE (R61): The region reaches q + PREEMPT_LIMIT with no pre-emption point, so a PREEMPT cause is forced with a whole-context save. -/
  | preemptForce (rg : Nat)
  /-- PHINT_MISMATCH (R59): At p + Dr the segment root finds that a phint was not issued by every non-halted core in stitch p. -/
  | phintMismatch (rg : Nat) (t : Nat)
  /-- CD_STITCH_MISMATCH (R258): At t + Dr the segment root finds that a cdopen or cdclose was not issued by every non-halted core in one stitch, and raises SLIP. -/
  | cdStitchMismatch (rg : Nat) (t : Nat)
  /-- HANG (R57): SSC reaches WDOG while some core of the region has not halted. -/
  | hang (rg : Nat)
  /-- REGION_RELEASE (R342): At cycle RC every core of the region issues its first bundle and STATE becomes 2; a segment root that received the message late reports it instead. -/
  | regionRelease (rg : Nat)
  /-- REGION_END (R36): Every core has halted and no in-flight record, transfer or plan step of the region remains, so the region ends and its open domains close. -/
  | regionEnd (rg : Nat)
  /-- SCHEDULE_END (R351): Once every write of an ended region is visible, the scheduler frees the region, writes DONE and decrements the dependants. -/
  | scheduleEnd (rg : Nat)
  /-- ROUTER_FLIT (R303): A data-plane flit reaches a router on its route and is forwarded with the entry's padding. -/
  | routerFlit (rg : Nat) (c : Nat) (x : Nat) (j : Nat)
  /-- BEAT_LANDING (R241): A transfer beat lands in the destination scratchpad at its landing stitch. -/
  | beatLanding (rg : Nat) (c : Nat) (b : Nat)
  /-- NEAR_BANK_ACCESS (R124): A near get, put, atomic or window access takes its near bank slot at the bridge. -/
  | nearBankAccess (rg : Nat) (nb : Nat)
  /-- FAR_PROBE (R126): At a beat's probe stitch the H-die checks the stripes that the beat reads or touches. -/
  | farProbe (rg : Nat) (c : Nat) (x : Nat) (j : Nat)
  /-- REBUILD_DECISION (R401): By p + 120 the H-dies decide whether a read or protected write can proceed, or they raise REBUILD or DATA_UNCORRECTABLE. -/
  | rebuildDecision (rg : Nat) (c : Nat) (x : Nat) (j : Nat)
  /-- FAR_READ (R126): The H-die reads a far beat's bytes at its read stitch, by degraded read where stripes are lost. -/
  | farRead (rg : Nat) (c : Nat) (x : Nat) (j : Nat)
  /-- FAR_WRITE_EFFECT (R126): A far put or scatter beat takes effect at its H-dies, or is kept as a held write while journalled. -/
  | farWriteEffect (rg : Nat) (c : Nat) (x : Nat) (j : Nat)
  /-- TRANSLATION_WALK (R323): The partition's HOME translation unit receives an XLATE request, walks the table, and fills the core's cache or reports the page. -/
  | translationWalk (rg : Nat) (c : Nat) (va : Nat)
  /-- XLATE_RETRY (R323): A write of RETRY to an XLATE record makes the unit walk the table again. -/
  | xlateRetry (rg : Nat) (c : Nat) (n : Nat)
  /-- XLATE_DECLINE (R323): A write of DECLINE to an XLATE record adds TRANSLATION to the hold record. -/
  | xlateDecline (rg : Nat) (c : Nat) (n : Nat)
  /-- TCINV_ALL (R324): A TCINV write with ALL set invalidates every translation-cache entry of the core. -/
  | tcinvAll (pk : Nat)
  /-- TCINV_VPN (R324): A TCINV write invalidates the entries whose page holds VPN. -/
  | tcinvVpn (pk : Nat) (vpn : Nat)
  /-- SYSREPLY_WRITE (R266): A write of SYSREPLY resolves the core's SYSREQ cause, and the reply lands in sy.r at h. -/
  | sysreplyWrite (pk : Nat) (val : BitVec 64)
  /-- HOST_TRIGGER (R313): A host writes a plan handle to a region's trigger window, and the trigger is registered at the segment root or dropped. -/
  | hostTrigger (rg : Nat) (h : Nat)
  /-- PLAN_RELEASE (R275): Dr stitches after a trigger, the plan is released on every engine, which clears FLAGS and starts counting offsets. -/
  | planRelease (rg : Nat) (h : Nat)
  /-- ENGINE_WRITE (R282): A delayed write, landing or token of a Puzil op takes place at its stitch. -/
  | engineWrite (rg : Nat) (h : Nat) (n : Nat)
  /-- PUZIL_NOP (R293): Puzil nop executes at its offset with no effect. -/
  | puzilNop (step : BitVec 8) (ofs : BitVec 24)
  /-- PUZIL_SEND (R283): An engine reads a local chunk and places it on a link to a rank. -/
  | puzilSend (step : BitVec 8) (ofs : BitVec 24) (a : BitVec 22) (len : BitVec 8) (adv : BitVec 3) (link : BitVec 4)
  /-- PUZIL_RECV (R283): An engine writes the chunk of its paired send to local D. -/
  | puzilRecv (step : BitVec 8) (ofs : BitVec 24) (d : BitVec 22) (len : BitVec 8) (adv : BitVec 3) (link : BitVec 4)
  /-- PUZIL_COPY (R284): An engine converts and moves a chunk between local memory and a window. -/
  | puzilCopy (step : BitVec 8) (ofs : BitVec 24) (a : BitVec 22) (d : BitVec 22) (len : BitVec 8) (adv : BitVec 3) (sfmt : BitVec 4) (dfmt : BitVec 4) (sat : Bool)
  /-- PUZIL_REDUCE (R285): An engine combines two chunks element by element by add, max or min. -/
  | puzilReduce (step : BitVec 8) (ofs : BitVec 24) (a : BitVec 22) (b : BitVec 22) (d : BitVec 22) (len : BitVec 8) (adv : BitVec 3) (fmt : BitVec 4) (red : BitVec 2)
  /-- PUZIL_RQADD (R286): An engine adds two narrow-format chunks and requantises the sum. -/
  | puzilRqadd (step : BitVec 8) (ofs : BitVec 24) (a : BitVec 22) (b : BitVec 22) (d : BitVec 22) (len : BitVec 8) (adv : BitVec 3) (qf : BitVec 2) (ty : BitVec 3) (sat : Bool) (nb : BitVec 9)
  /-- PUZIL_EXPMAX (R288): An engine folds contributions or states into XS128 state exponents and flags. -/
  | puzilExpmax (step : BitVec 8) (ofs : BitVec 24) (a : BitVec 22) (b : BitVec 22) (d : BitVec 22) (len : BitVec 8) (adv : BitVec 3) (bst : Bool)
  /-- PUZIL_BINACC (R289): An engine accumulates XS128 bins and refuses mismatched exponents with SLIP. -/
  | puzilBinacc (step : BitVec 8) (ofs : BitVec 24) (a : BitVec 22) (b : BitVec 22) (d : BitVec 22) (len : BitVec 8) (adv : BitVec 3) (bst : Bool)
  /-- PUZIL_BINOUT (R290): An engine rounds XS128 states to FP32 results. -/
  | puzilBinout (step : BitVec 8) (ofs : BitVec 24) (a : BitVec 22) (d : BitVec 22) (len : BitVec 8) (adv : BitVec 3)
  /-- PUZIL_DIGEST (R291): An engine computes the CRC-64 of a chunk. -/
  | puzilDigest (step : BitVec 8) (ofs : BitVec 24) (a : BitVec 22) (d : BitVec 22) (len : BitVec 8) (adv : BitVec 3)
  /-- PUZIL_DCMP (R291): An engine compares two 8-byte digests. -/
  | puzilDcmp (step : BitVec 8) (ofs : BitVec 24) (a : BitVec 22) (b : BitVec 22) (adv : BitVec 3) (peer : BitVec 8)
  /-- PUZIL_SIGNAL (R292): An engine sets a NOTIFY token in a core and ORs its FLAGS into that core's VSTAT. -/
  | puzilSignal (step : BitVec 8) (ofs : BitVec 24) (link : BitVec 4) (tok : BitVec 6)
  /-- PUZIL_WAIT (R293): An engine asserts that every earlier op of its program has completed. -/
  | puzilWait (step : BitVec 8) (ofs : BitVec 24)
  /-- PUZIL_LOOP (R294): An engine repeats a body of op words with advanced offsets and addresses. -/
  | puzilLoop (step : BitVec 8) (ofs : BitVec 24) (body : BitVec 8) (count : BitVec 16) (ostride : BitVec 24) (astride : BitVec 22) (awrap : BitVec 22)
  /-- PUZIL_END (R293): An engine reaches its last offset, and the plan is complete at r + C. -/
  | puzilEnd (step : BitVec 8) (ofs : BitVec 24)
  /-- PREEMPT_SAVE (R346): Once every other cause of a pre-empted region is resolved, the save engine writes the region's context to its save area. -/
  | preemptSave (rg : Nat)
  /-- RESTORE (R348): A Saved schedule is placed again: its routes, image and saved state are written, and the region thaws at h. -/
  | restore (rg : Nat)
  /-- ROLLBACK (R364): A held region is restored to its rollback target domain and restarted at that domain's open stitch. -/
  | rollback (rg : Nat)
  /-- JOURNAL_APPLY (R362): After a close brings OPEN to 0, the bridges and H-dies apply the journal to far memory, complete by t + 640. -/
  | journalApply (rg : Nat)
  /-- LAUNCH_RING_PRODUCE (R332): A write of a ring's PROD adds records to the ring, or is refused when the ring would overflow. -/
  | launchRingProduce (ring : Nat) (prod : Nat)
  /-- LAUNCH_RECORD_ACCEPT (R329): The scheduler reads a launch record while CONS differs from PROD, accepts or refuses it, and advances CONS. -/
  | launchRecordAccept
  /-- PLACEMENT (R335): When resources are freed or a schedule becomes Runnable, the scheduler places Runnable and Saved schedules in effective-priority order. -/
  | placement
  /-- REGION_LOAD (R341): A placed schedule is loaded: the descriptor, preserve area, routes, plans and core state are written, then the region is released. -/
  | regionLoad (rg : Nat)
  /-- PLAN_SETUP (R343): The plan_setup command checks a plan object, reserves its resources, loads its engines and returns a handle. -/
  | planSetup (rg : Nat) (fpa : Nat)
  /-- PLAN_FREE (R343): The plan_free command releases a resident plan. -/
  | planFree (h : Nat)
  /-- UNPICK (R349): A region is killed: the unpick flood, the purge of its routes and plans, and the discarding of its accesses. -/
  | unpick (rg : Nat) (reason : Nat)
  /-- UNPICK_SWEEP_END (R349): The router sweep of an unpick ends after 4,096 stitches of the region. -/
  | unpickSweepEnd (rg : Nat)
  /-- PURGE_COMPLETE (R349): The purge tree reads 0, so the region's grant and number are freed and the completion word is written with STATUS 0x20. -/
  | purgeComplete (rg : Nat)
  /-- PURGE_TIMEOUT (R349): The purge tree has not cleared 2^20 cycles after the sweep, so the units still set are reported. -/
  | purgeTimeout (rg : Nat)
  /-- PREEMPT_COMMAND (R345): The preempt command sends a pre-emption request to a region. -/
  | preemptCommand (rg : Nat)
  /-- CANCEL (R333): The cancel command frees a Waiting or Runnable slot and clears its count. -/
  | cancel (sid : Nat)
  /-- HEARTBEAT (R352): The active scheduler sends a heartbeat to the standby every 2^20 cycles. -/
  | heartbeat
  /-- SCHEDULER_TAKEOVER (R353): After 2^24 cycles without a heartbeat, or on a vote, the standby scheduler takes over. -/
  | schedulerTakeover
  /-- TACK_PACKET (R310): A tack router forwards a packet, takes a detour, or drops it with an undeliverable reply. -/
  | tackPacket (rt : Nat) (vn : Bool)
  /-- REGISTER_WRITE (R307): A window write to a register that has no row of its own writes it, or is refused. -/
  | registerWrite (swa : Nat) (data : List (BitVec 64))
  /-- DIAGNOSIS (R366): Each service processor diagnoses a hard fault on its own evidence and forms a verdict. -/
  | diagnosis (west : Option Verdict) (east : Option Verdict)
  /-- NEIGHBOUR_VOTE (R367): A neighbouring package's service processor returns its vote. -/
  | neighbourVote (ballot : Ballot)
  /-- NEIGHBOUR_VOTE_TIMEOUT (R367): The neighbour does not answer within 2^30 cycles and counts as voting for neither. -/
  | neighbourVoteTimeout
  /-- OPERATOR_VERDICT (R367): After a vote without a majority, the operator's policy chooses a verdict or an unpick. -/
  | operatorVerdict (choice : Ballot)
  /-- CORRECTABLE_ERROR (R368): The ECC corrects a value and the event is counted; 16 corrections at one location are treated as a hard fault. -/
  | correctableError (unit : Nat) (loc : Nat)
  /-- SCRUB_POISON (R358): The background scrub finds a poisoned value, which is reported and stamped at the segment root. -/
  | scrubPoison (rg : Nat) (cls : Nat) (unit : Nat) (addr : Nat)
  /-- CORE_RETIRE (R368): A hard-faulted core is retired by row shift and the affected regions roll back. -/
  | coreRetire (dc : Nat) (dr : Nat) (row : Nat) (col : Nat)
  /-- CHANNEL_SWAP (R368): A faulty seam channel is swapped for a repair channel, with ease once no repair channel is left. -/
  | channelSwap (seam : Nat) (lossy : Bool)
  /-- BRIDGE_HALF_REMAP (R370): The banks of a lost bridge half are remapped to the surviving half. -/
  | bridgeHalfRemap (br : Nat) (half : Bool)
  /-- COLUMN_DARN (R19): A column that holds a lost C-die is darned by shifting the die map. -/
  | columnDarn (col : Nat)
  /-- REMOTE_DARN (R369): A logical die lost after a column is already darned is excluded, or darned to a remote spare with ease. -/
  | remoteDarn (u : Nat) (v : Nat) (spare : Option (Nat × Nat))
  /-- H_DIE_LOSS (R378): An H-die is lost, and each region with an access due there gets a REBUILD cause. -/
  | hDieLoss (phys : Nat)
  /-- H_DIE_DARN (R371): A lost logical H-die is darned to a spare H-die. -/
  | hDieDarn (h : Nat)
  /-- H_DIE_DARN_IN_SERVICE (R402): An H-die still in service is copied to a spare and its map entry rewritten. -/
  | hDieDarnInService (h : Nat)
  /-- GROUP_REBUILD (R374): The background rebuild writes a group of a lost H-die to the spare. -/
  | groupRebuild (h : Nat)
  /-- PACKAGE_LOSS (R368): A package is lost: its multi-package regions are held and unpicked. -/
  | packageLoss (pkg : Nat)
  /-- CONTROL_DIE_LOSS (R368): A control die is lost and the standby scheduler takes over. -/
  | controlDieLoss (side : Side)
  /-- LINK_DOWN (R386): A fabric link goes down and holds the regions that cross it with DATA_UNCORRECTABLE class 13. -/
  | linkDown (port : Nat)
  /-- LINK_TRAINING (R381): A fabric link is trained, and its latency is fixed as Lfab. -/
  | linkTraining (port : Nat) (lat : Nat) (skid : Bool) (prot : Bool)
  /-- SYNC_PULSE (R380): A rack sync pulse every 2^20 cycles aligns PCYC; a package that loses alignment takes its links down. -/
  | syncPulse (aligned : Bool)
  /-- FABRIC_GROUP_RECEIVE (R389): A received five-flit group's integrity tag is checked. -/
  | fabricGroupReceive (port : Nat) (data : List (BitVec 8)) (tag : BitVec 96)
  /-- KEY_INSTALL (R390): A service processor installs a key into a port direction's next slot. -/
  | keyInstall (port : Nat) (inward : Bool) (key : NextKey)
  /-- KEY_SWITCH (R390): At the agreed group counter the active key switches and the epoch advances. -/
  | keySwitch (port : Nat) (inward : Bool)
  /-- COUNTER_EXHAUSTED (R390): A direction's group counter reaches 2^40, and its link goes down. -/
  | counterExhausted (port : Nat) (inward : Bool)
  /-- SERVICE_RAIL_ON (R395): The service rail comes on and each service processor runs its boot sequence. -/
  | serviceRailOn
  /-- RECOVERY_PROVISION (R396): The management controller re-provisions a service processor from the image its peer verified. -/
  | recoveryProvision (side : Side)
  /-- SERVICE_RAIL_OFF (R398): Removing the service rail loses every region, key and map. -/
  | serviceRailOff
  /-- SVN_RAISE (R394): An operator command through SPDM raises the fused minimum SVN. -/
  | svnRaise (svn : BitVec 32)
  /-- ATTESTATION_REQUEST (R397): A service processor answers an SPDM request with measurements or a secured session. -/
  | attestationRequest (side : Side) (req : SpdmReq)
  /-- HOST_ACCESS (R391): A host hart accesses far memory, near memory, the system window or its own devices. -/
  | hostAccess (hart : Nat) (write : Bool) (addr : Nat) (size : Nat) (data : List (BitVec 8))
  /-- DMA_WRITE (R393): A PCIe device writes through the IOMMU to far or near memory. -/
  | dmaWrite (die : Side) (addr : Nat) (data : List (BitVec 8))
  /-- EASE_UP (R400): Temperature or power exceeds its limit for 10 ms, so ease is raised through a DEBUG hold. -/
  | easeUp (hot : Option Nat)
  /-- EASE_DOWN (R400): The package is below its limits for 1 s, so ease is lowered. -/
  | easeDown (cool : Option Nat)
  /-- THERMAL_PREEMPT (R400): At 105 °C, or with a region already at k = 8, the region is pre-empted or unpicked. -/
  | thermalPreempt (unit : Nat)
  /-- COOLANT_FAULT (R400): At 115 °C, or after 1 s of low coolant, the service rail is removed. -/
  | coolantFault
  /-- TRANSPORT_MOVE (R151): A move carries a source to a register or operand port. -/
  | transportMove (d : PlainDst) (src : Src) (e : Bool)
  /-- SHORT_TRANSPORT_MOVE (R147): A 16-bit move carries a g register or a latch to a register or port. -/
  | shortTransportMove (d : ShortDst) (src : ShortSrc) (e : Bool)
  /-- IMMEDIATE_MOVE (R152): A move writes a sign-extended 16-bit immediate to DST. -/
  | immediateMove (d : Dst) (imm : BitVec 16) (e : Bool)
  /-- LONG_IMMEDIATE_MOVE (R152): A move writes a 32-bit literal to DST, placed as POS gives. -/
  | longImmediateMove (d : Dst) (pos : LitPos) (lit : BitVec 32) (e : Bool)
  /-- IDLE (R153): An idle move ends the bundle and the core issues nothing for COUNT stitches. -/
  | idle (count : BitVec 24) (e : Bool)
  /-- NOP (R153): A move without effect that counts against R63. -/
  | nop (e : Bool)
  /-- FADD_COMPACT (R148): Compact FP32 add: vd := vd + vs, with write-back. -/
  | faddCompact (vd : BitVec 5) (vs : BitVec 4) (e : Bool)
  /-- FSUB_COMPACT (R148): Compact FP32 subtract. -/
  | fsubCompact (vd : BitVec 5) (vs : BitVec 4) (e : Bool)
  /-- FMUL_COMPACT (R148): Compact FP32 multiply. -/
  | fmulCompact (vd : BitVec 5) (vs : BitVec 4) (e : Bool)
  /-- FMIN_COMPACT (R148): Compact FP32 minimum. -/
  | fminCompact (vd : BitVec 5) (vs : BitVec 4) (e : Bool)
  /-- FMAX_COMPACT (R148): Compact FP32 maximum. -/
  | fmaxCompact (vd : BitVec 5) (vs : BitVec 4) (e : Bool)
  /-- BADD_COMPACT (R148): Compact BF16 add. -/
  | baddCompact (vd : BitVec 5) (vs : BitVec 4) (e : Bool)
  /-- BMUL_COMPACT (R148): Compact BF16 multiply. -/
  | bmulCompact (vd : BitVec 5) (vs : BitVec 4) (e : Bool)
  /-- ADD_COMPACT (R148): Compact INT32 add. -/
  | addCompact (vd : BitVec 5) (vs : BitVec 4) (e : Bool)
  /-- SUB_COMPACT (R148): Compact INT32 subtract. -/
  | subCompact (vd : BitVec 5) (vs : BitVec 4) (e : Bool)
  /-- MAX_COMPACT (R148): Compact INT32 maximum. -/
  | maxCompact (vd : BitVec 5) (vs : BitVec 4) (e : Bool)
  /-- MIN_COMPACT (R148): Compact INT32 minimum. -/
  | minCompact (vd : BitVec 5) (vs : BitVec 4) (e : Bool)
  /-- AND_COMPACT (R148): Compact bitwise AND. -/
  | andCompact (vd : BitVec 5) (vs : BitVec 4) (e : Bool)
  /-- OR_COMPACT (R148): Compact bitwise OR. -/
  | orCompact (vd : BitVec 5) (vs : BitVec 4) (e : Bool)
  /-- XOR_COMPACT (R148): Compact bitwise XOR. -/
  | xorCompact (vd : BitVec 5) (vs : BitVec 4) (e : Bool)
  /-- ANDN_COMPACT (R148): Compact bitwise AND NOT. -/
  | andnCompact (vd : BitVec 5) (vs : BitVec 4) (e : Bool)
  /-- PERM_COMPACT (R148): Compact 32-bit lane permute. -/
  | permCompact (vd : BitVec 5) (vs : BitVec 4) (e : Bool)
  /-- IA_ADD (R174): Integer add a + b. -/
  | iaAdd (u : IaUnit) (src : Src) (e : Bool)
  /-- IA_SUB (R174): Integer subtract a − b. -/
  | iaSub (u : IaUnit) (src : Src) (e : Bool)
  /-- IA_AND (R174): Bitwise AND. -/
  | iaAnd (u : IaUnit) (src : Src) (e : Bool)
  /-- IA_OR (R174): Bitwise OR. -/
  | iaOr (u : IaUnit) (src : Src) (e : Bool)
  /-- IA_XOR (R174): Bitwise XOR. -/
  | iaXor (u : IaUnit) (src : Src) (e : Bool)
  /-- IA_SHL (R174): Shift left. -/
  | iaShl (u : IaUnit) (src : Src) (e : Bool)
  /-- IA_SHR (R174): Logical shift right. -/
  | iaShr (u : IaUnit) (src : Src) (e : Bool)
  /-- IA_SRA (R174): Arithmetic shift right. -/
  | iaSra (u : IaUnit) (src : Src) (e : Bool)
  /-- IA_SEL (R174): Select a if b is non-zero, else c. -/
  | iaSel (u : IaUnit) (src : Src) (e : Bool)
  /-- IA_CMPEQ (R174): Compare equal. -/
  | iaCmpeq (u : IaUnit) (src : Src) (e : Bool)
  /-- IA_CMPLT (R174): Signed compare less than. -/
  | iaCmplt (u : IaUnit) (src : Src) (e : Bool)
  /-- IA_CMPLTU (R174): Unsigned compare less than. -/
  | iaCmpltu (u : IaUnit) (src : Src) (e : Bool)
  /-- IA_MIN (R174): Signed minimum. -/
  | iaMin (u : IaUnit) (src : Src) (e : Bool)
  /-- IA_MAX (R174): Signed maximum. -/
  | iaMax (u : IaUnit) (src : Src) (e : Bool)
  /-- IA_ANDN (R174): a AND NOT b. -/
  | iaAndn (u : IaUnit) (src : Src) (e : Bool)
  /-- IA_ROTL (R174): Rotate left. -/
  | iaRotl (u : IaUnit) (src : Src) (e : Bool)
  /-- IA_MINU (R174): Unsigned minimum. -/
  | iaMinu (u : IaUnit) (src : Src) (e : Bool)
  /-- IA_MAXU (R174): Unsigned maximum. -/
  | iaMaxu (u : IaUnit) (src : Src) (e : Bool)
  /-- IA_CMPNE (R174): Compare not equal. -/
  | iaCmpne (u : IaUnit) (src : Src) (e : Bool)
  /-- IA_CMPGE (R174): Signed compare greater or equal. -/
  | iaCmpge (u : IaUnit) (src : Src) (e : Bool)
  /-- IA_CMPGEU (R174): Unsigned compare greater or equal. -/
  | iaCmpgeu (u : IaUnit) (src : Src) (e : Bool)
  /-- IA_BFX (R175): Bit-field extract. -/
  | iaBfx (u : IaUnit) (src : Src) (e : Bool)
  /-- IA_BFI (R175): Bit-field insert. -/
  | iaBfi (u : IaUnit) (src : Src) (e : Bool)
  /-- IA_CLZ (R174): Count leading zeros of b. -/
  | iaClz (u : IaUnit) (src : Src) (e : Bool)
  /-- IA_CTZ (R174): Count trailing zeros of b. -/
  | iaCtz (u : IaUnit) (src : Src) (e : Bool)
  /-- IA_POPC (R174): Population count of b. -/
  | iaPopc (u : IaUnit) (src : Src) (e : Bool)
  /-- IA_PSET (R175): Build a pointer value from ADDR, STRIDE and WRAP. -/
  | iaPset (u : IaUnit) (src : Src) (e : Bool)
  /-- IA0_ADD_SHORT (R174): Short form of ia0.add. -/
  | ia0AddShort (src : ShortSrc) (e : Bool)
  /-- IA0_SUB_SHORT (R174): Short form of ia0.sub. -/
  | ia0SubShort (src : ShortSrc) (e : Bool)
  /-- IA0_AND_SHORT (R174): Short form of ia0.and. -/
  | ia0AndShort (src : ShortSrc) (e : Bool)
  /-- IA0_OR_SHORT (R174): Short form of ia0.or. -/
  | ia0OrShort (src : ShortSrc) (e : Bool)
  /-- IA0_XOR_SHORT (R174): Short form of ia0.xor. -/
  | ia0XorShort (src : ShortSrc) (e : Bool)
  /-- IA0_SHL_SHORT (R174): Short form of ia0.shl. -/
  | ia0ShlShort (src : ShortSrc) (e : Bool)
  /-- IA0_SHR_SHORT (R174): Short form of ia0.shr. -/
  | ia0ShrShort (src : ShortSrc) (e : Bool)
  /-- IA0_SRA_SHORT (R174): Short form of ia0.sra. -/
  | ia0SraShort (src : ShortSrc) (e : Bool)
  /-- IA0_SEL_SHORT (R174): Short form of ia0.sel. -/
  | ia0SelShort (src : ShortSrc) (e : Bool)
  /-- IA0_CMPEQ_SHORT (R174): Short form of ia0.cmpeq. -/
  | ia0CmpeqShort (src : ShortSrc) (e : Bool)
  /-- IA0_CMPLT_SHORT (R174): Short form of ia0.cmplt. -/
  | ia0CmpltShort (src : ShortSrc) (e : Bool)
  /-- IA0_CMPLTU_SHORT (R174): Short form of ia0.cmpltu. -/
  | ia0CmpltuShort (src : ShortSrc) (e : Bool)
  /-- IA0_MIN_SHORT (R174): Short form of ia0.min. -/
  | ia0MinShort (src : ShortSrc) (e : Bool)
  /-- IA0_MAX_SHORT (R174): Short form of ia0.max. -/
  | ia0MaxShort (src : ShortSrc) (e : Bool)
  /-- IA1_ADD_SHORT (R174): Short form of ia1.add. -/
  | ia1AddShort (src : ShortSrc) (e : Bool)
  /-- IA1_SUB_SHORT (R174): Short form of ia1.sub. -/
  | ia1SubShort (src : ShortSrc) (e : Bool)
  /-- IA1_AND_SHORT (R174): Short form of ia1.and. -/
  | ia1AndShort (src : ShortSrc) (e : Bool)
  /-- IA1_OR_SHORT (R174): Short form of ia1.or. -/
  | ia1OrShort (src : ShortSrc) (e : Bool)
  /-- IA1_XOR_SHORT (R174): Short form of ia1.xor. -/
  | ia1XorShort (src : ShortSrc) (e : Bool)
  /-- IA1_SHL_SHORT (R174): Short form of ia1.shl. -/
  | ia1ShlShort (src : ShortSrc) (e : Bool)
  /-- IA1_SHR_SHORT (R174): Short form of ia1.shr. -/
  | ia1ShrShort (src : ShortSrc) (e : Bool)
  /-- IA1_SRA_SHORT (R174): Short form of ia1.sra. -/
  | ia1SraShort (src : ShortSrc) (e : Bool)
  /-- IA1_SEL_SHORT (R174): Short form of ia1.sel. -/
  | ia1SelShort (src : ShortSrc) (e : Bool)
  /-- IA1_CMPEQ_SHORT (R174): Short form of ia1.cmpeq. -/
  | ia1CmpeqShort (src : ShortSrc) (e : Bool)
  /-- IA1_CMPLT_SHORT (R174): Short form of ia1.cmplt. -/
  | ia1CmpltShort (src : ShortSrc) (e : Bool)
  /-- IA1_CMPLTU_SHORT (R174): Short form of ia1.cmpltu. -/
  | ia1CmpltuShort (src : ShortSrc) (e : Bool)
  /-- IA1_MIN_SHORT (R174): Short form of ia1.min. -/
  | ia1MinShort (src : ShortSrc) (e : Bool)
  /-- IA1_MAX_SHORT (R174): Short form of ia1.max. -/
  | ia1MaxShort (src : ShortSrc) (e : Bool)
  /-- IM_MUL (R177): 64-bit multiply, low half. -/
  | imMul (src : Src) (e : Bool)
  /-- IM_MULH (R177): Signed multiply, high half. -/
  | imMulh (src : Src) (e : Bool)
  /-- IM_MULHU (R177): Unsigned multiply, high half. -/
  | imMulhu (src : Src) (e : Bool)
  /-- IM_DIV (R177): Signed divide; quotient and remainder land at t+20. -/
  | imDiv (src : Src) (e : Bool)
  /-- IM_DIVU (R177): Unsigned divide. -/
  | imDivu (src : Src) (e : Bool)
  /-- IM_REM (R177): Signed remainder. -/
  | imRem (src : Src) (e : Bool)
  /-- IM_REMU (R177): Unsigned remainder. -/
  | imRemu (src : Src) (e : Bool)
  /-- IM_MUL_SHORT (R177): Short form of im.mul. -/
  | imMulShort (src : ShortSrc) (e : Bool)
  /-- IM_MULH_SHORT (R177): Short form of im.mulh. -/
  | imMulhShort (src : ShortSrc) (e : Bool)
  /-- IM_MULHU_SHORT (R177): Short form of im.mulhu. -/
  | imMulhuShort (src : ShortSrc) (e : Bool)
  /-- IM_DIV_SHORT (R177): Short form of im.div. -/
  | imDivShort (src : ShortSrc) (e : Bool)
  /-- IM_DIVU_SHORT (R177): Short form of im.divu. -/
  | imDivuShort (src : ShortSrc) (e : Bool)
  /-- IM_REM_SHORT (R177): Short form of im.rem. -/
  | imRemShort (src : ShortSrc) (e : Bool)
  /-- IM_REMU_SHORT (R177): Short form of im.remu. -/
  | imRemuShort (src : ShortSrc) (e : Bool)
  /-- LS_LD8 (R185): Load a sign-extended byte. -/
  | lsLd8 (p : Bool) (src : Src) (e : Bool)
  /-- LS_LD8U (R185): Load a zero-extended byte. -/
  | lsLd8u (p : Bool) (src : Src) (e : Bool)
  /-- LS_LD16 (R185): Load a sign-extended halfword. -/
  | lsLd16 (p : Bool) (src : Src) (e : Bool)
  /-- LS_LD16U (R185): Load a zero-extended halfword. -/
  | lsLd16u (p : Bool) (src : Src) (e : Bool)
  /-- LS_LD32 (R185): Load a sign-extended word. -/
  | lsLd32 (p : Bool) (src : Src) (e : Bool)
  /-- LS_LD32U (R185): Load a zero-extended word. -/
  | lsLd32u (p : Bool) (src : Src) (e : Bool)
  /-- LS_LD64 (R185): Load 8 bytes. -/
  | lsLd64 (p : Bool) (src : Src) (e : Bool)
  /-- LS_LD256 (R185): Load 256 bytes. -/
  | lsLd256 (p : Bool) (src : Src) (e : Bool)
  /-- LS_ST8 (R186): Store a byte. -/
  | lsSt8 (p : Bool) (src : Src) (e : Bool)
  /-- LS_ST16 (R186): Store a halfword. -/
  | lsSt16 (p : Bool) (src : Src) (e : Bool)
  /-- LS_ST32 (R186): Store a word. -/
  | lsSt32 (p : Bool) (src : Src) (e : Bool)
  /-- LS_ST64 (R186): Store 8 bytes. -/
  | lsSt64 (p : Bool) (src : Src) (e : Bool)
  /-- LS_ST256 (R187): Store 256 bytes, optionally masked by 32-bit groups. -/
  | lsSt256 (p : Bool) (z : Bool) (k : BitVec 3) (q : Bool) (src : Src) (e : Bool)
  /-- LS_AADD (R189): Scratchpad atomic add. -/
  | lsAadd (w : Bool) (p : Bool) (src : Src) (e : Bool)
  /-- LS_AAND (R189): Scratchpad atomic AND. -/
  | lsAand (w : Bool) (p : Bool) (src : Src) (e : Bool)
  /-- LS_AOR (R189): Scratchpad atomic OR. -/
  | lsAor (w : Bool) (p : Bool) (src : Src) (e : Bool)
  /-- LS_AXOR (R189): Scratchpad atomic XOR. -/
  | lsAxor (w : Bool) (p : Bool) (src : Src) (e : Bool)
  /-- LS_AMIN (R189): Scratchpad atomic signed minimum. -/
  | lsAmin (w : Bool) (p : Bool) (src : Src) (e : Bool)
  /-- LS_AMAX (R189): Scratchpad atomic signed maximum. -/
  | lsAmax (w : Bool) (p : Bool) (src : Src) (e : Bool)
  /-- LS_AMINU (R189): Scratchpad atomic unsigned minimum. -/
  | lsAminu (w : Bool) (p : Bool) (src : Src) (e : Bool)
  /-- LS_AMAXU (R189): Scratchpad atomic unsigned maximum. -/
  | lsAmaxu (w : Bool) (p : Bool) (src : Src) (e : Bool)
  /-- LS_AXCHG (R189): Scratchpad atomic exchange. -/
  | lsAxchg (w : Bool) (p : Bool) (src : Src) (e : Bool)
  /-- LS_ACAS (R189): Scratchpad atomic compare and swap. -/
  | lsAcas (w : Bool) (p : Bool) (src : Src) (e : Bool)
  /-- LS_AFADD (R189): Scratchpad atomic FP32 add. -/
  | lsAfadd (p : Bool) (src : Src) (e : Bool)
  /-- LS_AFMIN (R189): Scratchpad atomic FP32 minimum. -/
  | lsAfmin (p : Bool) (src : Src) (e : Bool)
  /-- LS_AFMAX (R189): Scratchpad atomic FP32 maximum. -/
  | lsAfmax (p : Bool) (src : Src) (e : Bool)
  /-- LS_LD8_SHORT (R185): Short form of ls.ld8. -/
  | lsLd8Short (src : ShortSrc) (e : Bool)
  /-- LS_LD8U_SHORT (R185): Short form of ls.ld8u. -/
  | lsLd8uShort (src : ShortSrc) (e : Bool)
  /-- LS_LD16_SHORT (R185): Short form of ls.ld16. -/
  | lsLd16Short (src : ShortSrc) (e : Bool)
  /-- LS_LD16U_SHORT (R185): Short form of ls.ld16u. -/
  | lsLd16uShort (src : ShortSrc) (e : Bool)
  /-- LS_LD32_SHORT (R185): Short form of ls.ld32. -/
  | lsLd32Short (src : ShortSrc) (e : Bool)
  /-- LS_LD32U_SHORT (R185): Short form of ls.ld32u. -/
  | lsLd32uShort (src : ShortSrc) (e : Bool)
  /-- LS_LD64_SHORT (R185): Short form of ls.ld64. -/
  | lsLd64Short (src : ShortSrc) (e : Bool)
  /-- LS_LD256_SHORT (R185): Short form of ls.ld256. -/
  | lsLd256Short (src : ShortSrc) (e : Bool)
  /-- LS_ST8_SHORT (R186): Short form of ls.st8. -/
  | lsSt8Short (src : ShortSrc) (e : Bool)
  /-- LS_ST16_SHORT (R186): Short form of ls.st16. -/
  | lsSt16Short (src : ShortSrc) (e : Bool)
  /-- LS_ST32_SHORT (R186): Short form of ls.st32. -/
  | lsSt32Short (src : ShortSrc) (e : Bool)
  /-- LS_ST64_SHORT (R186): Short form of ls.st64. -/
  | lsSt64Short (src : ShortSrc) (e : Bool)
  /-- LS_ST256_SHORT (R186): Short form of ls.st256, unmasked. -/
  | lsSt256Short (src : ShortSrc) (e : Bool)
  /-- LS_AADD_SHORT (R189): Short form of ls.aadd, 4 bytes. -/
  | lsAaddShort (src : ShortSrc) (e : Bool)
  /-- VX_FADD (R199): Lane-wise FP add. -/
  | vxFadd (m : BitVec 3) (z : Bool) (k : BitVec 3) (q : Bool) (src : Src) (e : Bool)
  /-- VX_FSUB (R199): Lane-wise FP subtract. -/
  | vxFsub (m : BitVec 3) (z : Bool) (k : BitVec 3) (q : Bool) (src : Src) (e : Bool)
  /-- VX_FMUL (R199): Lane-wise FP multiply. -/
  | vxFmul (m : BitVec 3) (z : Bool) (k : BitVec 3) (q : Bool) (src : Src) (e : Bool)
  /-- VX_FMA (R199): Lane-wise fused multiply-add. -/
  | vxFma (m : BitVec 3) (z : Bool) (k : BitVec 3) (q : Bool) (src : Src) (e : Bool)
  /-- VX_FMS (R199): Lane-wise fused multiply-subtract. -/
  | vxFms (m : BitVec 3) (z : Bool) (k : BitVec 3) (q : Bool) (src : Src) (e : Bool)
  /-- VX_FNMA (R199): Lane-wise negated fused multiply-add. -/
  | vxFnma (m : BitVec 3) (z : Bool) (k : BitVec 3) (q : Bool) (src : Src) (e : Bool)
  /-- VX_FMIN (R199): Lane-wise FP minimum. -/
  | vxFmin (m : BitVec 3) (z : Bool) (k : BitVec 3) (q : Bool) (src : Src) (e : Bool)
  /-- VX_FMAX (R199): Lane-wise FP maximum. -/
  | vxFmax (m : BitVec 3) (z : Bool) (k : BitVec 3) (q : Bool) (src : Src) (e : Bool)
  /-- VX_ADD (R197): Lane-wise integer add. -/
  | vxAdd (m : BitVec 2) (z : Bool) (k : BitVec 3) (q : Bool) (src : Src) (e : Bool)
  /-- VX_SUB (R197): Lane-wise integer subtract. -/
  | vxSub (m : BitVec 2) (z : Bool) (k : BitVec 3) (q : Bool) (src : Src) (e : Bool)
  /-- VX_AND (R198): 2,048-bit AND. -/
  | vxAnd (z : Bool) (k : BitVec 3) (q : Bool) (src : Src) (e : Bool)
  /-- VX_OR (R198): 2,048-bit OR. -/
  | vxOr (z : Bool) (k : BitVec 3) (q : Bool) (src : Src) (e : Bool)
  /-- VX_XOR (R198): 2,048-bit XOR. -/
  | vxXor (z : Bool) (k : BitVec 3) (q : Bool) (src : Src) (e : Bool)
  /-- VX_MAX (R197): Lane-wise signed maximum. -/
  | vxMax (m : BitVec 2) (z : Bool) (k : BitVec 3) (q : Bool) (src : Src) (e : Bool)
  /-- VX_FABS (R199): Lane-wise FP absolute value. -/
  | vxFabs (m : BitVec 3) (z : Bool) (k : BitVec 3) (q : Bool) (src : Src) (e : Bool)
  /-- VX_FNEG (R199): Lane-wise FP negate. -/
  | vxFneg (m : BitVec 3) (z : Bool) (k : BitVec 3) (q : Bool) (src : Src) (e : Bool)
  /-- VX_FDIV (R199): Lane-wise FP divide, latency 12, occupancy 4. -/
  | vxFdiv (m : BitVec 3) (z : Bool) (k : BitVec 3) (q : Bool) (src : Src) (e : Bool)
  /-- VX_FSQRT (R199): Lane-wise FP square root. -/
  | vxFsqrt (m : BitVec 3) (z : Bool) (k : BitVec 3) (q : Bool) (src : Src) (e : Bool)
  /-- VX_FCEQ (R202): FP compare equal to a mask. -/
  | vxFceq (m : BitVec 3) (z : Bool) (k : BitVec 3) (q : Bool) (src : Src) (e : Bool)
  /-- VX_FCLT (R202): FP compare less than to a mask. -/
  | vxFclt (m : BitVec 3) (z : Bool) (k : BitVec 3) (q : Bool) (src : Src) (e : Bool)
  /-- VX_FCLE (R202): FP compare less or equal to a mask. -/
  | vxFcle (m : BitVec 3) (z : Bool) (k : BitVec 3) (q : Bool) (src : Src) (e : Bool)
  /-- VX_MUL (R197): Lane-wise integer multiply, low half. -/
  | vxMul (m : BitVec 2) (z : Bool) (k : BitVec 3) (q : Bool) (src : Src) (e : Bool)
  /-- VX_MULH (R197): Lane-wise signed multiply, high half. -/
  | vxMulh (m : BitVec 2) (z : Bool) (k : BitVec 3) (q : Bool) (src : Src) (e : Bool)
  /-- VX_ANDN (R198): 2,048-bit AND NOT. -/
  | vxAndn (z : Bool) (k : BitVec 3) (q : Bool) (src : Src) (e : Bool)
  /-- VX_SHL (R197): Lane-wise shift left. -/
  | vxShl (m : BitVec 2) (z : Bool) (k : BitVec 3) (q : Bool) (src : Src) (e : Bool)
  /-- VX_SHR (R197): Lane-wise logical shift right. -/
  | vxShr (m : BitVec 2) (z : Bool) (k : BitVec 3) (q : Bool) (src : Src) (e : Bool)
  /-- VX_SRA (R197): Lane-wise arithmetic shift right. -/
  | vxSra (m : BitVec 2) (z : Bool) (k : BitVec 3) (q : Bool) (src : Src) (e : Bool)
  /-- VX_MIN (R197): Lane-wise signed minimum. -/
  | vxMin (m : BitVec 2) (z : Bool) (k : BitVec 3) (q : Bool) (src : Src) (e : Bool)
  /-- VX_MINU (R197): Lane-wise unsigned minimum. -/
  | vxMinu (m : BitVec 2) (z : Bool) (k : BitVec 3) (q : Bool) (src : Src) (e : Bool)
  /-- VX_MAXU (R197): Lane-wise unsigned maximum. -/
  | vxMaxu (m : BitVec 2) (z : Bool) (k : BitVec 3) (q : Bool) (src : Src) (e : Bool)
  /-- VX_ADDS (R197): Lane-wise signed saturating add. -/
  | vxAdds (m : BitVec 2) (z : Bool) (k : BitVec 3) (q : Bool) (src : Src) (e : Bool)
  /-- VX_SUBS (R197): Lane-wise signed saturating subtract. -/
  | vxSubs (m : BitVec 2) (z : Bool) (k : BitVec 3) (q : Bool) (src : Src) (e : Bool)
  /-- VX_ADDSU (R197): Lane-wise unsigned saturating add. -/
  | vxAddsu (m : BitVec 2) (z : Bool) (k : BitVec 3) (q : Bool) (src : Src) (e : Bool)
  /-- VX_SUBSU (R197): Lane-wise unsigned saturating subtract. -/
  | vxSubsu (m : BitVec 2) (z : Bool) (k : BitVec 3) (q : Bool) (src : Src) (e : Bool)
  /-- VX_CEQ (R202): Integer compare equal to a mask. -/
  | vxCeq (m : BitVec 2) (z : Bool) (k : BitVec 3) (q : Bool) (src : Src) (e : Bool)
  /-- VX_CLT (R202): Signed integer compare less than to a mask. -/
  | vxClt (m : BitVec 2) (z : Bool) (k : BitVec 3) (q : Bool) (src : Src) (e : Bool)
  /-- VX_CLTU (R202): Unsigned integer compare less than to a mask. -/
  | vxCltu (m : BitVec 2) (z : Bool) (k : BitVec 3) (q : Bool) (src : Src) (e : Bool)
  /-- VX_FADD_SHORT (R199): Short form of vx.fadd. -/
  | vxFaddShort (src : ShortSrc) (e : Bool)
  /-- VX_FSUB_SHORT (R199): Short form of vx.fsub. -/
  | vxFsubShort (src : ShortSrc) (e : Bool)
  /-- VX_FMUL_SHORT (R199): Short form of vx.fmul. -/
  | vxFmulShort (src : ShortSrc) (e : Bool)
  /-- VX_FMA_SHORT (R199): Short form of vx.fma. -/
  | vxFmaShort (src : ShortSrc) (e : Bool)
  /-- VX_FMS_SHORT (R199): Short form of vx.fms. -/
  | vxFmsShort (src : ShortSrc) (e : Bool)
  /-- VX_FNMA_SHORT (R199): Short form of vx.fnma. -/
  | vxFnmaShort (src : ShortSrc) (e : Bool)
  /-- VX_FMIN_SHORT (R199): Short form of vx.fmin. -/
  | vxFminShort (src : ShortSrc) (e : Bool)
  /-- VX_FMAX_SHORT (R199): Short form of vx.fmax. -/
  | vxFmaxShort (src : ShortSrc) (e : Bool)
  /-- VX_ADD_SHORT (R197): Short form of vx.add. -/
  | vxAddShort (src : ShortSrc) (e : Bool)
  /-- VX_SUB_SHORT (R197): Short form of vx.sub. -/
  | vxSubShort (src : ShortSrc) (e : Bool)
  /-- VX_AND_SHORT (R198): Short form of vx.and. -/
  | vxAndShort (src : ShortSrc) (e : Bool)
  /-- VX_OR_SHORT (R198): Short form of vx.or. -/
  | vxOrShort (src : ShortSrc) (e : Bool)
  /-- VX_XOR_SHORT (R198): Short form of vx.xor. -/
  | vxXorShort (src : ShortSrc) (e : Bool)
  /-- VX_MAX_SHORT (R197): Short form of vx.max. -/
  | vxMaxShort (src : ShortSrc) (e : Bool)
  /-- VP_PERM (R203): Permute lanes of a by the indices in b. -/
  | vpPerm (m : BitVec 3) (z : Bool) (k : BitVec 3) (q : Bool) (src : Src) (e : Bool)
  /-- VP_BCAST (R203): Broadcast lane 0 of b. -/
  | vpBcast (m : BitVec 3) (z : Bool) (k : BitVec 3) (q : Bool) (src : Src) (e : Bool)
  /-- VP_SLIDEUP (R203): Slide lanes up, filling from c. -/
  | vpSlideup (m : BitVec 3) (z : Bool) (k : BitVec 3) (q : Bool) (src : Src) (e : Bool)
  /-- VP_SLIDEDN (R203): Slide lanes down, filling from c. -/
  | vpSlidedn (m : BitVec 3) (z : Bool) (k : BitVec 3) (q : Bool) (src : Src) (e : Bool)
  /-- VP_CVT (R205): Convert lanes between formats. -/
  | vpCvt (rne : Bool) (nosat : Bool) (z : Bool) (k : BitVec 3) (q : Bool) (src : Src) (e : Bool)
  /-- VP_RSUM (R209): Tree sum of lanes. -/
  | vpRsum (m : BitVec 3) (z : Bool) (k : BitVec 3) (q : Bool) (src : Src) (e : Bool)
  /-- VP_RMAX (R209): Maximum of lanes. -/
  | vpRmax (m : BitVec 3) (z : Bool) (k : BitVec 3) (q : Bool) (src : Src) (e : Bool)
  /-- VP_RMIN (R209): Minimum of lanes. -/
  | vpRmin (m : BitVec 3) (z : Bool) (k : BitVec 3) (q : Bool) (src : Src) (e : Bool)
  /-- VP_MAND (R211): Mask AND. -/
  | vpMand (src : Src) (e : Bool)
  /-- VP_MOR (R211): Mask OR. -/
  | vpMor (src : Src) (e : Bool)
  /-- VP_MXOR (R211): Mask XOR. -/
  | vpMxor (src : Src) (e : Bool)
  /-- VP_MNOT (R211): Mask NOT. -/
  | vpMnot (src : Src) (e : Bool)
  /-- VP_MPOP (R211): Mask population count. -/
  | vpMpop (src : Src) (e : Bool)
  /-- VP_IOTA (R203): Lane i := base + i. -/
  | vpIota (m : BitVec 3) (z : Bool) (k : BitVec 3) (q : Bool) (src : Src) (e : Bool)
  /-- VP_ROT (R203): Rotate lanes. -/
  | vpRot (m : BitVec 3) (z : Bool) (k : BitVec 3) (q : Bool) (src : Src) (e : Bool)
  /-- VP_ILV (R203): Interleave the lanes of a and b. -/
  | vpIlv (m : BitVec 3) (z : Bool) (k : BitVec 3) (q : Bool) (src : Src) (e : Bool)
  /-- VP_DILV (R203): De-interleave the lanes of a and b. -/
  | vpDilv (m : BitVec 3) (z : Bool) (k : BitVec 3) (q : Bool) (src : Src) (e : Bool)
  /-- VP_COMPRESS (R204): Pack the kept lanes. -/
  | vpCompress (m : BitVec 3) (z : Bool) (k : BitVec 3) (q : Bool) (src : Src) (e : Bool)
  /-- VP_EXPAND (R204): Spread lanes to the kept positions. -/
  | vpExpand (m : BitVec 3) (z : Bool) (k : BitVec 3) (q : Bool) (src : Src) (e : Bool)
  /-- VP_CVT_EF (R206): Error-feedback conversion from FP32 with a residue. -/
  | vpCvtEf (nosat : Bool) (z : Bool) (k : BitVec 3) (q : Bool) (src : Src) (e : Bool)
  /-- VP_QBLK (R207): Quantise 64 FP32 lanes to two B4 blocks. -/
  | vpQblk (m : BitVec 3) (src : Src) (e : Bool)
  /-- VP_DQBLK (R208): Decode two B4 blocks to FP32. -/
  | vpDqblk (src : Src) (e : Bool)
  /-- VP_RBSUM (R210): XS128 exact sum of lanes, with its state. -/
  | vpRbsum (src : Src) (e : Bool)
  /-- VP_MFIRST (R211): Index of the lowest mask bit. -/
  | vpMfirst (src : Src) (e : Bool)
  /-- VP_PERM_SHORT (R203): Short form of vp.perm. -/
  | vpPermShort (src : ShortSrc) (e : Bool)
  /-- VP_BCAST_SHORT (R203): Short form of vp.bcast. -/
  | vpBcastShort (src : ShortSrc) (e : Bool)
  /-- VP_SLIDEUP_SHORT (R203): Short form of vp.slideup. -/
  | vpSlideupShort (src : ShortSrc) (e : Bool)
  /-- VP_SLIDEDN_SHORT (R203): Short form of vp.slidedn. -/
  | vpSlidednShort (src : ShortSrc) (e : Bool)
  /-- VP_CVT_SHORT (R205): Short form of vp.cvt. -/
  | vpCvtShort (src : ShortSrc) (e : Bool)
  /-- VP_RSUM_SHORT (R209): Short form of vp.rsum. -/
  | vpRsumShort (src : ShortSrc) (e : Bool)
  /-- VP_RMAX_SHORT (R209): Short form of vp.rmax. -/
  | vpRmaxShort (src : ShortSrc) (e : Bool)
  /-- VP_RMIN_SHORT (R209): Short form of vp.rmin. -/
  | vpRminShort (src : ShortSrc) (e : Bool)
  /-- VP_MAND_SHORT (R211): Short form of vp.mand. -/
  | vpMandShort (src : ShortSrc) (e : Bool)
  /-- VP_MOR_SHORT (R211): Short form of vp.mor. -/
  | vpMorShort (src : ShortSrc) (e : Bool)
  /-- VP_MXOR_SHORT (R211): Short form of vp.mxor. -/
  | vpMxorShort (src : ShortSrc) (e : Bool)
  /-- VP_MNOT_SHORT (R211): Short form of vp.mnot. -/
  | vpMnotShort (src : ShortSrc) (e : Bool)
  /-- VP_MPOP_SHORT (R211): Short form of vp.mpop. -/
  | vpMpopShort (src : ShortSrc) (e : Bool)
  /-- VP_IOTA_SHORT (R203): Short form of vp.iota. -/
  | vpIotaShort (src : ShortSrc) (e : Bool)
  /-- MX_MMA (R227): Dense matrix multiply-accumulate into a tile over S steps. -/
  | mxMma (src : Src) (e : Bool)
  /-- MX_MMAS (R229): 2:4 sparse matrix multiply-accumulate. -/
  | mxMmas (src : Src) (e : Bool)
  /-- MX_ZERO (R231): Zero a tile. -/
  | mxZero (src : Src) (e : Bool)
  /-- MX_RROW (R231): Read a tile row into mx.r. -/
  | mxRrow (src : Src) (e : Bool)
  /-- MX_RCOL (R231): Read a tile column into mx.r. -/
  | mxRcol (src : Src) (e : Bool)
  /-- MX_WROW (R231): Write a tile row from a v register. -/
  | mxWrow (src : Src) (e : Bool)
  /-- MX_WCOL (R231): Write a tile column from a v register. -/
  | mxWcol (src : Src) (e : Bool)
  /-- MX_LOAD (R232): Load a tile from the scratchpad, row by row. -/
  | mxLoad (src : Src) (e : Bool)
  /-- MX_STORE (R232): Store a tile to the scratchpad, row by row. -/
  | mxStore (src : Src) (e : Bool)
  /-- MX_COMMIT (R233): Close the uncommitted mx operations into group g. -/
  | mxCommit (src : Src) (e : Bool)
  /-- MX_WAIT (R233): Assert that mx group g is complete. -/
  | mxWait (src : Src) (e : Bool)
  /-- MX_STATUS (R234): Land the engine state in mx.r. -/
  | mxStatus (src : Src) (e : Bool)
  /-- MX_MMA_SHORT (R227): Short form of mx.mma. -/
  | mxMmaShort (src : ShortSrc) (e : Bool)
  /-- MX_MMAS_SHORT (R229): Short form of mx.mmas. -/
  | mxMmasShort (src : ShortSrc) (e : Bool)
  /-- MX_ZERO_SHORT (R231): Short form of mx.zero. -/
  | mxZeroShort (src : ShortSrc) (e : Bool)
  /-- MX_RROW_SHORT (R231): Short form of mx.rrow. -/
  | mxRrowShort (src : ShortSrc) (e : Bool)
  /-- MX_RCOL_SHORT (R231): Short form of mx.rcol. -/
  | mxRcolShort (src : ShortSrc) (e : Bool)
  /-- MX_WROW_SHORT (R231): Short form of mx.wrow. -/
  | mxWrowShort (src : ShortSrc) (e : Bool)
  /-- MX_WCOL_SHORT (R231): Short form of mx.wcol. -/
  | mxWcolShort (src : ShortSrc) (e : Bool)
  /-- MX_LOAD_SHORT (R232): Short form of mx.load. -/
  | mxLoadShort (src : ShortSrc) (e : Bool)
  /-- MX_STORE_SHORT (R232): Short form of mx.store. -/
  | mxStoreShort (src : ShortSrc) (e : Bool)
  /-- MX_COMMIT_SHORT (R233): Short form of mx.commit. -/
  | mxCommitShort (src : ShortSrc) (e : Bool)
  /-- MX_WAIT_SHORT (R233): Short form of mx.wait. -/
  | mxWaitShort (src : ShortSrc) (e : Bool)
  /-- MX_STATUS_SHORT (R234): Short form of mx.status. -/
  | mxStatusShort (src : ShortSrc) (e : Bool)
  /-- XF_SEND (R242): Send beats on a route to another core. -/
  | xfSend (src : Src) (e : Bool)
  /-- XF_RECV (R242): Receive a route's beats into the scratchpad. -/
  | xfRecv (src : Src) (e : Bool)
  /-- XF_GETN (R241): Get bytes from near memory. -/
  | xfGetn (acq : Bool) (src : Src) (e : Bool)
  /-- XF_PUTN (R241): Put bytes to near memory. -/
  | xfPutn (rel : Bool) (src : Src) (e : Bool)
  /-- XF_GETF (R241): Get bytes from far memory. -/
  | xfGetf (acq : Bool) (src : Src) (e : Bool)
  /-- XF_PUTF (R241): Put bytes to far memory, journalled while a domain is open. -/
  | xfPutf (rel : Bool) (src : Src) (e : Bool)
  /-- XF_GATHF (R246): Gather far rows by an index list. -/
  | xfGathf (acq : Bool) (src : Src) (e : Bool)
  /-- XF_SCATF (R246): Scatter rows to far memory by an index list. -/
  | xfScatf (rel : Bool) (src : Src) (e : Bool)
  /-- XF_AMON (R247): Atomic at a near bank ALU. -/
  | xfAmon (rel : Bool) (acq : Bool) (src : Src) (e : Bool)
  /-- XF_FLUSH (R248): Fence the named domains, landing a token at t+640. -/
  | xfFlush (src : Src) (e : Bool)
  /-- XF_COMMIT (R249): Close the uncommitted xf operations into group g. -/
  | xfCommit (src : Src) (e : Bool)
  /-- XF_WAIT (R249): Assert that xf group g is complete. -/
  | xfWait (src : Src) (e : Bool)
  /-- XF_SEND_SHORT (R242): Short form of xf.send. -/
  | xfSendShort (src : ShortSrc) (e : Bool)
  /-- XF_RECV_SHORT (R242): Short form of xf.recv. -/
  | xfRecvShort (src : ShortSrc) (e : Bool)
  /-- XF_GETN_SHORT (R241): Short form of xf.getn. -/
  | xfGetnShort (src : ShortSrc) (e : Bool)
  /-- XF_PUTN_SHORT (R241): Short form of xf.putn. -/
  | xfPutnShort (src : ShortSrc) (e : Bool)
  /-- XF_GETF_SHORT (R241): Short form of xf.getf. -/
  | xfGetfShort (src : ShortSrc) (e : Bool)
  /-- XF_PUTF_SHORT (R241): Short form of xf.putf. -/
  | xfPutfShort (src : ShortSrc) (e : Bool)
  /-- XF_GATHF_SHORT (R246): Short form of xf.gathf. -/
  | xfGathfShort (src : ShortSrc) (e : Bool)
  /-- XF_SCATF_SHORT (R246): Short form of xf.scatf. -/
  | xfScatfShort (src : ShortSrc) (e : Bool)
  /-- XF_AMON_SHORT (R247): Short form of xf.amon. -/
  | xfAmonShort (src : ShortSrc) (e : Bool)
  /-- XF_FLUSH_SHORT (R248): Short form of xf.flush. -/
  | xfFlushShort (src : ShortSrc) (e : Bool)
  /-- XF_COMMIT_SHORT (R249): Short form of xf.commit. -/
  | xfCommitShort (src : ShortSrc) (e : Bool)
  /-- XF_WAIT_SHORT (R249): Short form of xf.wait. -/
  | xfWaitShort (src : ShortSrc) (e : Bool)
  /-- BR_JMP (R180): Jump to an absolute target. -/
  | brJmp (src : Src) (e : Bool)
  /-- BR_JR (R180): Jump relative to the bundle. -/
  | brJr (src : Src) (e : Bool)
  /-- BR_BZ (R180): Branch if b is zero. -/
  | brBz (src : Src) (e : Bool)
  /-- BR_BNZ (R180): Branch if b is non-zero. -/
  | brBnz (src : Src) (e : Bool)
  /-- BR_BLTZ (R180): Branch if b is negative. -/
  | brBltz (src : Src) (e : Bool)
  /-- BR_BGEZ (R180): Branch if b is non-negative. -/
  | brBgez (src : Src) (e : Bool)
  /-- BR_BEQ (R180): Branch if b equals c. -/
  | brBeq (src : Src) (e : Bool)
  /-- BR_CALL (R180): Call an absolute target, landing the return address. -/
  | brCall (src : Src) (e : Bool)
  /-- BR_CALLR (R180): Call a relative target. -/
  | brCallr (src : Src) (e : Bool)
  /-- BR_RET (R180): Return to the address in br.r. -/
  | brRet (src : Src) (e : Bool)
  /-- BR_LOOP (R180): Decrement a count and branch while it is non-zero. -/
  | brLoop (src : Src) (e : Bool)
  /-- BR_JMP_SHORT (R180): Short form of br.jmp. -/
  | brJmpShort (src : ShortSrc) (e : Bool)
  /-- BR_JR_SHORT (R180): Short form of br.jr. -/
  | brJrShort (src : ShortSrc) (e : Bool)
  /-- BR_BZ_SHORT (R180): Short form of br.bz. -/
  | brBzShort (src : ShortSrc) (e : Bool)
  /-- BR_BNZ_SHORT (R180): Short form of br.bnz. -/
  | brBnzShort (src : ShortSrc) (e : Bool)
  /-- BR_BLTZ_SHORT (R180): Short form of br.bltz. -/
  | brBltzShort (src : ShortSrc) (e : Bool)
  /-- BR_BGEZ_SHORT (R180): Short form of br.bgez. -/
  | brBgezShort (src : ShortSrc) (e : Bool)
  /-- BR_BEQ_SHORT (R180): Short form of br.beq. -/
  | brBeqShort (src : ShortSrc) (e : Bool)
  /-- BR_CALL_SHORT (R180): Short form of br.call. -/
  | brCallShort (src : ShortSrc) (e : Bool)
  /-- BR_CALLR_SHORT (R180): Short form of br.callr. -/
  | brCallrShort (src : ShortSrc) (e : Bool)
  /-- BR_RET_SHORT (R180): Short form of br.ret. -/
  | brRetShort (src : ShortSrc) (e : Bool)
  /-- BR_LOOP_SHORT (R180): Short form of br.loop. -/
  | brLoopShort (src : ShortSrc) (e : Bool)
  /-- SY_SYNC (R38): Arrive at the drawstring and wait for the release. -/
  | sySync (src : Src) (e : Bool)
  /-- SY_ARRIVE (R38): Arrive at the drawstring and keep issuing. -/
  | syArrive (src : Src) (e : Bool)
  /-- SY_WAITREL (R38): Wait for the release of a pending arrival. -/
  | syWaitrel (src : Src) (e : Bool)
  /-- SY_HALT (R254): Put the core in the Halted state. -/
  | syHalt (src : Src) (e : Bool)
  /-- SY_TFENCE (R100): Raise ARITH if VSTAT AND VTRAPEN is non-zero. -/
  | syTfence (src : Src) (e : Bool)
  /-- SY_PHINT (R257): Mark a pre-emption point that names a liveness entry. -/
  | syPhint (src : Src) (e : Bool)
  /-- SY_CDOPEN (R258): Open a containment domain and copy its preserved state. -/
  | syCdopen (src : Src) (e : Bool)
  /-- SY_CDCLOSE (R261): Close the innermost containment domain. -/
  | syCdclose (src : Src) (e : Bool)
  /-- SY_CTRIG (R263): Fire a plan by its handle. -/
  | syCtrig (src : Src) (e : Bool)
  /-- SY_CHK (R256): Assert the SSC, or with .tok a NOTIFY bit. -/
  | syChk (tok : Bool) (src : Src) (e : Bool)
  /-- SY_GUARD (R264): Write a guard register. -/
  | syGuard (src : Src) (e : Bool)
  /-- SY_WATCH (R264): Write a watchpoint register. -/
  | syWatch (src : Src) (e : Bool)
  /-- SY_BRK (R265): Raise BREAK. -/
  | syBrk (src : Src) (e : Bool)
  /-- SY_SYSREQ (R266): Raise SYSREQ, a request to the region manager. -/
  | sySysreq (src : Src) (e : Bool)
  /-- SY_SYNC_SHORT (R38): Short form of sy.sync. -/
  | sySyncShort (src : ShortSrc) (e : Bool)
  /-- SY_ARRIVE_SHORT (R38): Short form of sy.arrive. -/
  | syArriveShort (src : ShortSrc) (e : Bool)
  /-- SY_WAITREL_SHORT (R38): Short form of sy.waitrel. -/
  | syWaitrelShort (src : ShortSrc) (e : Bool)
  /-- SY_HALT_SHORT (R254): Short form of sy.halt. -/
  | syHaltShort (src : ShortSrc) (e : Bool)
  /-- SY_TFENCE_SHORT (R100): Short form of sy.tfence. -/
  | syTfenceShort (src : ShortSrc) (e : Bool)
  /-- SY_PHINT_SHORT (R257): Short form of sy.phint. -/
  | syPhintShort (src : ShortSrc) (e : Bool)
  /-- SY_CDOPEN_SHORT (R258): Short form of sy.cdopen. -/
  | syCdopenShort (src : ShortSrc) (e : Bool)
  /-- SY_CDCLOSE_SHORT (R261): Short form of sy.cdclose. -/
  | syCdcloseShort (src : ShortSrc) (e : Bool)
  /-- SY_CTRIG_SHORT (R263): Short form of sy.ctrig. -/
  | syCtrigShort (src : ShortSrc) (e : Bool)
  /-- SY_CHK_SHORT (R256): Short form of sy.chk, the span-stitch assertion. -/
  | syChkShort (src : ShortSrc) (e : Bool)
  /-- SY_GUARD_SHORT (R264): Short form of sy.guard. -/
  | syGuardShort (src : ShortSrc) (e : Bool)
  /-- SY_WATCH_SHORT (R264): Short form of sy.watch. -/
  | syWatchShort (src : ShortSrc) (e : Bool)
  /-- SY_BRK_SHORT (R265): Short form of sy.brk. -/
  | syBrkShort (src : ShortSrc) (e : Bool)
  /-- SY_SYSREQ_SHORT (R266): Short form of sy.sysreq. -/
  | sySysreqShort (src : ShortSrc) (e : Bool)
  /-- TG_LOOK (R192): Look up a key in the tag table. -/
  | tgLook (src : Src) (e : Bool)
  /-- TG_SET (R192): Set a tag table entry. -/
  | tgSet (src : Src) (e : Bool)
  /-- TG_INV (R192): Invalidate a tag table entry. -/
  | tgInv (src : Src) (e : Bool)
  /-- TG_READ (R192): Read an entry's DATA. -/
  | tgRead (src : Src) (e : Bool)
  /-- TG_LOOK_SHORT (R192): Short form of tg.look. -/
  | tgLookShort (src : ShortSrc) (e : Bool)
  /-- TG_SET_SHORT (R192): Short form of tg.set. -/
  | tgSetShort (src : ShortSrc) (e : Bool)
  /-- TG_INV_SHORT (R192): Short form of tg.inv. -/
  | tgInvShort (src : ShortSrc) (e : Bool)
  /-- TG_READ_SHORT (R192): Short form of tg.read. -/
  | tgReadShort (src : ShortSrc) (e : Bool)
  /-- CR_RD (R183): Read a special register into cr.r. -/
  | crRd (src : Src) (e : Bool)
  /-- CR_WR (R183): Write a special register, in effect from t+1. -/
  | crWr (src : Src) (e : Bool)
  /-- CR_RD_SHORT (R183): Short form of cr.rd. -/
  | crRdShort (src : ShortSrc) (e : Bool)
  /-- CR_WR_SHORT (R183): Short form of cr.wr. -/
  | crWrShort (src : ShortSrc) (e : Bool)
  /-- M_DIE_HALF_LOST (R368): Half of an M-die is lost, and every region with a route, plan, grant bank or window through that bridge is held. -/
  | mDieHalfLost (br : Nat) (half : Bool)
  /-- C_DIE_LOST (R368): A C-die is lost, and every region with a logical die in its logical column or east of it is held. -/
  | cDieLost (col : Nat) (row : Nat)
deriving DecidableEq, Repr

end Sys2Proof
end

