-- ==== Sys2Proof/WellFormed.lean ====
section
/-! DEFINITION. Well-formed instructions: the operand values that an encoding admits (spec/06_encoding.md R152 to R159; Puzil op words,
spec/11_puzil.md R278 to R294). -/
namespace Sys2Proof

/-- Is the source a pointer register? The post-increment forms need one (R158, R159). -/
def Src.isP : Src → Bool | .p _ => true | _ => false

/-- MSEL and Z must be zero when M = 0 (R159). -/
def maskWf (q : Bool) (k : BitVec 3) (z : Bool) : Bool := q || (k == 0 && !z)

/-- A used chunk address: a window has bit 20 zero and a mapped scratchpad unit (spec/11_puzil.md R279). -/
def chunkWf (x : BitVec 22) : Bool := !x.getLsbD 21 || (!x.getLsbD 20 && x.toNat % 2 ^ 16 < 0xc000)
/-- A local chunk address. -/
def localWf (x : BitVec 22) : Bool := !x.getLsbD 21
/-- LEN below its reserved values (R278). -/
def lenWf (x : BitVec 8) : Bool := x.toNat < 192
/-- Advance bits only on fields in use (R278). -/
def advWf (a b d : Bool) (x : BitVec 3) : Bool := (a || !x.getLsbD 0) && (b || !x.getLsbD 1) && (d || !x.getLsbD 2)
/-- The formats of `reduce` (R285). -/
def redFmtWf (x : BitVec 4) : Bool := x.toNat ≤ 2 || (5 ≤ x.toNat && x.toNat ≤ 8)
/-- The bytes that a copy writes for `LEN` units are a multiple of 32 and at most 6,144 (R284); widths in bits by FMT code. -/
def fmtBits (x : BitVec 4) : Nat := match x.toNat with | 0 => 32 | 1 => 16 | 2 => 16 | 7 => 32 | 8 => 64 | _ => 8
def copyWf (len : BitVec 8) (s d : BitVec 4) : Bool :=
  let n := 256 * (len.toNat + 1) / fmtBits s * fmtBits d / 8
  s.toNat ≤ 8 && d.toNat ≤ 8 && n % 32 == 0 && decide (n ≤ 6144)
/-- The fields of `rqadd` (R286). -/
def rqaddWf (len : BitVec 8) (qf : BitVec 2) (ty : BitVec 3) (sat : Bool) (nb : BitVec 9) : Bool :=
  match qf.toNat with
  | 0 => ty == 0 && nb == 0
  | 1 => ty == 0 && nb == 0 && !sat
  | 2 => ty.toNat ≤ 4 && !sat && 1 ≤ nb.toNat && nb.toNat ≤ 361 && len.toNat + 1 == (17 * nb.toNat + 31) / 32
  | _ => false

/-- Is the instruction one that its encoding admits? An event has no encoding and no ill-formed value. -/
def Instr.wf : Instr → Bool
  | .puzilSend _ _ a len adv _ => localWf a && lenWf len && advWf true false false adv
  | .puzilRecv _ _ d len adv _ => localWf d && lenWf len && advWf false false true adv
  | .puzilCopy _ _ a d len adv sfmt dfmt _ => chunkWf a && chunkWf d && !(a.getLsbD 21 && d.getLsbD 21) && lenWf len && advWf true false true adv && copyWf len sfmt dfmt
  | .puzilReduce _ _ a b d len _ fmt red => localWf a && localWf b && localWf d && lenWf len && redFmtWf fmt && red.toNat ≤ 2
  | .puzilRqadd _ _ a b d len _ qf ty sat nb => localWf a && localWf b && localWf d && lenWf len && rqaddWf len qf ty sat nb
  | .puzilExpmax _ _ a b d len _ _ => localWf a && localWf b && localWf d && lenWf len
  | .puzilBinacc _ _ a b d len _ _ => localWf a && localWf b && localWf d && lenWf len
  | .puzilBinout _ _ a d len adv => localWf a && localWf d && lenWf len && advWf true false true adv
  | .puzilDigest _ _ a d len adv => localWf a && localWf d && lenWf len && advWf true false true adv
  | .puzilDcmp _ _ a b adv _ => localWf a && localWf b && advWf true true false adv
  | .puzilLoop step ofs body count _ _ _ => step == 0 && ofs == 0 && body != 0 && count != 0
  | .lsLd8 p src _ => (!p || src.isP)
  | .lsLd8u p src _ => (!p || src.isP)
  | .lsLd16 p src _ => (!p || src.isP)
  | .lsLd16u p src _ => (!p || src.isP)
  | .lsLd32 p src _ => (!p || src.isP)
  | .lsLd32u p src _ => (!p || src.isP)
  | .lsLd64 p src _ => (!p || src.isP)
  | .lsLd256 p src _ => (!p || src.isP)
  | .lsSt8 p src _ => (!p || src.isP)
  | .lsSt16 p src _ => (!p || src.isP)
  | .lsSt32 p src _ => (!p || src.isP)
  | .lsSt64 p src _ => (!p || src.isP)
  | .lsSt256 p z k q src _ => (!p || src.isP) && maskWf q k z
  | .lsAadd _ p src _ => (!p || src.isP)
  | .lsAand _ p src _ => (!p || src.isP)
  | .lsAor _ p src _ => (!p || src.isP)
  | .lsAxor _ p src _ => (!p || src.isP)
  | .lsAmin _ p src _ => (!p || src.isP)
  | .lsAmax _ p src _ => (!p || src.isP)
  | .lsAminu _ p src _ => (!p || src.isP)
  | .lsAmaxu _ p src _ => (!p || src.isP)
  | .lsAxchg _ p src _ => (!p || src.isP)
  | .lsAcas _ p src _ => (!p || src.isP)
  | .lsAfadd p src _ => (!p || src.isP)
  | .lsAfmin p src _ => (!p || src.isP)
  | .lsAfmax p src _ => (!p || src.isP)
  | .vxFadd m z k q _ _ => maskWf q k z && m.toNat % 4 != 3
  | .vxFsub m z k q _ _ => maskWf q k z && m.toNat % 4 != 3
  | .vxFmul m z k q _ _ => maskWf q k z && m.toNat % 4 != 3
  | .vxFma m z k q _ _ => maskWf q k z && m.toNat % 4 != 3
  | .vxFms m z k q _ _ => maskWf q k z && m.toNat % 4 != 3
  | .vxFnma m z k q _ _ => maskWf q k z && m.toNat % 4 != 3
  | .vxFmin m z k q _ _ => maskWf q k z && m.toNat % 4 != 3
  | .vxFmax m z k q _ _ => maskWf q k z && m.toNat % 4 != 3
  | .vxAdd m z k q _ _ => maskWf q k z && m != 3
  | .vxSub m z k q _ _ => maskWf q k z && m != 3
  | .vxAnd z k q _ _ => maskWf q k z
  | .vxOr z k q _ _ => maskWf q k z
  | .vxXor z k q _ _ => maskWf q k z
  | .vxMax m z k q _ _ => maskWf q k z && m != 3
  | .vxFabs m z k q _ _ => maskWf q k z && m.toNat % 4 != 3
  | .vxFneg m z k q _ _ => maskWf q k z && m.toNat % 4 != 3
  | .vxFdiv m z k q _ _ => maskWf q k z && m.toNat % 4 != 3
  | .vxFsqrt m z k q _ _ => maskWf q k z && m.toNat % 4 != 3
  | .vxFceq m z k q _ _ => maskWf q k z && m.toNat % 4 != 3
  | .vxFclt m z k q _ _ => maskWf q k z && m.toNat % 4 != 3
  | .vxFcle m z k q _ _ => maskWf q k z && m.toNat % 4 != 3
  | .vxMul m z k q _ _ => maskWf q k z && m != 3
  | .vxMulh m z k q _ _ => maskWf q k z && m != 3
  | .vxAndn z k q _ _ => maskWf q k z
  | .vxShl m z k q _ _ => maskWf q k z && m != 3
  | .vxShr m z k q _ _ => maskWf q k z && m != 3
  | .vxSra m z k q _ _ => maskWf q k z && m != 3
  | .vxMin m z k q _ _ => maskWf q k z && m != 3
  | .vxMinu m z k q _ _ => maskWf q k z && m != 3
  | .vxMaxu m z k q _ _ => maskWf q k z && m != 3
  | .vxAdds m z k q _ _ => maskWf q k z && m != 3
  | .vxSubs m z k q _ _ => maskWf q k z && m != 3
  | .vxAddsu m z k q _ _ => maskWf q k z && m != 3
  | .vxSubsu m z k q _ _ => maskWf q k z && m != 3
  | .vxCeq m z k q _ _ => maskWf q k z && m != 3
  | .vxClt m z k q _ _ => maskWf q k z && m != 3
  | .vxCltu m z k q _ _ => maskWf q k z && m != 3
  | .vpPerm m z k q _ _ => maskWf q k z && m.toNat ≤ 4
  | .vpBcast m z k q _ _ => maskWf q k z && m.toNat ≤ 4
  | .vpSlideup m z k q _ _ => maskWf q k z && m.toNat ≤ 4
  | .vpSlidedn m z k q _ _ => maskWf q k z && m.toNat ≤ 4
  | .vpCvt _ _ z k q _ _ => maskWf q k z
  | .vpRsum m z k q _ _ => maskWf q k z && m != 7
  | .vpRmax m z k q _ _ => maskWf q k z && m != 7
  | .vpRmin m z k q _ _ => maskWf q k z && m != 7
  | .vpIota m z k q _ _ => maskWf q k z && m.toNat ≤ 4
  | .vpRot m z k q _ _ => maskWf q k z && m.toNat ≤ 4
  | .vpIlv m z k q _ _ => maskWf q k z && m.toNat ≤ 4
  | .vpDilv m z k q _ _ => maskWf q k z && m.toNat ≤ 4
  | .vpCompress m z k q _ _ => maskWf q k z && m.toNat ≤ 4
  | .vpExpand m z k q _ _ => maskWf q k z && m.toNat ≤ 4
  | .vpCvtEf _ z k q _ _ => maskWf q k z
  | .vpQblk m _ _ => m.toNat ≤ 4
  | .bundleIssue _ _ | .idleEnd _ _ | .landing _ _ | .bankSlot _ _ _ | .branchRedirect _ _ | .drawstringRelease _
  | .hold _ | .thaw _ | .debugRequest _ | .acknowledge _ | .preemptArm _ | .preemptForce _
  | .phintMismatch _ _ | .cdStitchMismatch _ _ | .hang _ | .regionRelease _ | .regionEnd _ | .scheduleEnd _
  | .routerFlit _ _ _ _ | .beatLanding _ _ _ | .nearBankAccess _ _ | .farProbe _ _ _ _ | .rebuildDecision _ _ _ _ | .farRead _ _ _ _
  | .farWriteEffect _ _ _ _ | .translationWalk _ _ _ | .xlateRetry _ _ _ | .xlateDecline _ _ _ | .tcinvAll _ | .tcinvVpn _ _
  | .sysreplyWrite _ _ | .hostTrigger _ _ | .planRelease _ _ | .engineWrite _ _ _ | .puzilNop _ _ | .puzilSignal _ _ _ _
  | .puzilWait _ _ | .puzilEnd _ _ | .preemptSave _ | .restore _ | .rollback _ | .journalApply _
  | .launchRingProduce _ _ | .launchRecordAccept | .placement | .regionLoad _ | .planSetup _ _ | .planFree _
  | .unpick _ _ | .unpickSweepEnd _ | .purgeComplete _ | .purgeTimeout _ | .preemptCommand _ | .cancel _
  | .heartbeat | .schedulerTakeover | .tackPacket _ _ | .registerWrite _ _ | .diagnosis _ _ | .neighbourVote _
  | .neighbourVoteTimeout | .operatorVerdict _ | .correctableError _ _ | .scrubPoison _ _ _ _ | .coreRetire _ _ _ _ | .channelSwap _ _
  | .bridgeHalfRemap _ _ | .columnDarn _ | .remoteDarn _ _ _ | .hDieLoss _ | .hDieDarn _ | .hDieDarnInService _
  | .groupRebuild _ | .packageLoss _ | .controlDieLoss _ | .linkDown _ | .linkTraining _ _ _ _ | .syncPulse _
  | .fabricGroupReceive _ _ _ | .keyInstall _ _ _ | .keySwitch _ _ | .counterExhausted _ _ | .serviceRailOn | .recoveryProvision _
  | .serviceRailOff | .svnRaise _ | .attestationRequest _ _ | .hostAccess _ _ _ _ _ | .dmaWrite _ _ _ | .easeUp _
  | .easeDown _ | .thermalPreempt _ | .coolantFault | .transportMove _ _ _ | .shortTransportMove _ _ _ | .immediateMove _ _ _
  | .longImmediateMove _ _ _ _ | .idle _ _ | .nop _ | .faddCompact _ _ _ | .fsubCompact _ _ _ | .fmulCompact _ _ _
  | .fminCompact _ _ _ | .fmaxCompact _ _ _ | .baddCompact _ _ _ | .bmulCompact _ _ _ | .addCompact _ _ _ | .subCompact _ _ _
  | .maxCompact _ _ _ | .minCompact _ _ _ | .andCompact _ _ _ | .orCompact _ _ _ | .xorCompact _ _ _ | .andnCompact _ _ _
  | .permCompact _ _ _ | .iaAdd _ _ _ | .iaSub _ _ _ | .iaAnd _ _ _ | .iaOr _ _ _ | .iaXor _ _ _
  | .iaShl _ _ _ | .iaShr _ _ _ | .iaSra _ _ _ | .iaSel _ _ _ | .iaCmpeq _ _ _ | .iaCmplt _ _ _
  | .iaCmpltu _ _ _ | .iaMin _ _ _ | .iaMax _ _ _ | .iaAndn _ _ _ | .iaRotl _ _ _ | .iaMinu _ _ _
  | .iaMaxu _ _ _ | .iaCmpne _ _ _ | .iaCmpge _ _ _ | .iaCmpgeu _ _ _ | .iaBfx _ _ _ | .iaBfi _ _ _
  | .iaClz _ _ _ | .iaCtz _ _ _ | .iaPopc _ _ _ | .iaPset _ _ _ | .ia0AddShort _ _ | .ia0SubShort _ _
  | .ia0AndShort _ _ | .ia0OrShort _ _ | .ia0XorShort _ _ | .ia0ShlShort _ _ | .ia0ShrShort _ _ | .ia0SraShort _ _
  | .ia0SelShort _ _ | .ia0CmpeqShort _ _ | .ia0CmpltShort _ _ | .ia0CmpltuShort _ _ | .ia0MinShort _ _ | .ia0MaxShort _ _
  | .ia1AddShort _ _ | .ia1SubShort _ _ | .ia1AndShort _ _ | .ia1OrShort _ _ | .ia1XorShort _ _ | .ia1ShlShort _ _
  | .ia1ShrShort _ _ | .ia1SraShort _ _ | .ia1SelShort _ _ | .ia1CmpeqShort _ _ | .ia1CmpltShort _ _ | .ia1CmpltuShort _ _
  | .ia1MinShort _ _ | .ia1MaxShort _ _ | .imMul _ _ | .imMulh _ _ | .imMulhu _ _ | .imDiv _ _
  | .imDivu _ _ | .imRem _ _ | .imRemu _ _ | .imMulShort _ _ | .imMulhShort _ _ | .imMulhuShort _ _
  | .imDivShort _ _ | .imDivuShort _ _ | .imRemShort _ _ | .imRemuShort _ _ | .lsLd8Short _ _ | .lsLd8uShort _ _
  | .lsLd16Short _ _ | .lsLd16uShort _ _ | .lsLd32Short _ _ | .lsLd32uShort _ _ | .lsLd64Short _ _ | .lsLd256Short _ _
  | .lsSt8Short _ _ | .lsSt16Short _ _ | .lsSt32Short _ _ | .lsSt64Short _ _ | .lsSt256Short _ _ | .lsAaddShort _ _
  | .vxFaddShort _ _ | .vxFsubShort _ _ | .vxFmulShort _ _ | .vxFmaShort _ _ | .vxFmsShort _ _ | .vxFnmaShort _ _
  | .vxFminShort _ _ | .vxFmaxShort _ _ | .vxAddShort _ _ | .vxSubShort _ _ | .vxAndShort _ _ | .vxOrShort _ _
  | .vxXorShort _ _ | .vxMaxShort _ _ | .vpMand _ _ | .vpMor _ _ | .vpMxor _ _ | .vpMnot _ _
  | .vpMpop _ _ | .vpDqblk _ _ | .vpRbsum _ _ | .vpMfirst _ _ | .vpPermShort _ _ | .vpBcastShort _ _
  | .vpSlideupShort _ _ | .vpSlidednShort _ _ | .vpCvtShort _ _ | .vpRsumShort _ _ | .vpRmaxShort _ _ | .vpRminShort _ _
  | .vpMandShort _ _ | .vpMorShort _ _ | .vpMxorShort _ _ | .vpMnotShort _ _ | .vpMpopShort _ _ | .vpIotaShort _ _
  | .mxMma _ _ | .mxMmas _ _ | .mxZero _ _ | .mxRrow _ _ | .mxRcol _ _ | .mxWrow _ _
  | .mxWcol _ _ | .mxLoad _ _ | .mxStore _ _ | .mxCommit _ _ | .mxWait _ _ | .mxStatus _ _
  | .mxMmaShort _ _ | .mxMmasShort _ _ | .mxZeroShort _ _ | .mxRrowShort _ _ | .mxRcolShort _ _ | .mxWrowShort _ _
  | .mxWcolShort _ _ | .mxLoadShort _ _ | .mxStoreShort _ _ | .mxCommitShort _ _ | .mxWaitShort _ _ | .mxStatusShort _ _
  | .xfSend _ _ | .xfRecv _ _ | .xfGetn _ _ _ | .xfPutn _ _ _ | .xfGetf _ _ _ | .xfPutf _ _ _
  | .xfGathf _ _ _ | .xfScatf _ _ _ | .xfAmon _ _ _ _ | .xfFlush _ _ | .xfCommit _ _ | .xfWait _ _
  | .xfSendShort _ _ | .xfRecvShort _ _ | .xfGetnShort _ _ | .xfPutnShort _ _ | .xfGetfShort _ _ | .xfPutfShort _ _
  | .xfGathfShort _ _ | .xfScatfShort _ _ | .xfAmonShort _ _ | .xfFlushShort _ _ | .xfCommitShort _ _ | .xfWaitShort _ _
  | .brJmp _ _ | .brJr _ _ | .brBz _ _ | .brBnz _ _ | .brBltz _ _ | .brBgez _ _
  | .brBeq _ _ | .brCall _ _ | .brCallr _ _ | .brRet _ _ | .brLoop _ _ | .brJmpShort _ _
  | .brJrShort _ _ | .brBzShort _ _ | .brBnzShort _ _ | .brBltzShort _ _ | .brBgezShort _ _ | .brBeqShort _ _
  | .brCallShort _ _ | .brCallrShort _ _ | .brRetShort _ _ | .brLoopShort _ _ | .sySync _ _ | .syArrive _ _
  | .syWaitrel _ _ | .syHalt _ _ | .syTfence _ _ | .syPhint _ _ | .syCdopen _ _ | .syCdclose _ _
  | .syCtrig _ _ | .syChk _ _ _ | .syGuard _ _ | .syWatch _ _ | .syBrk _ _ | .sySysreq _ _
  | .sySyncShort _ _ | .syArriveShort _ _ | .syWaitrelShort _ _ | .syHaltShort _ _ | .syTfenceShort _ _ | .syPhintShort _ _
  | .syCdopenShort _ _ | .syCdcloseShort _ _ | .syCtrigShort _ _ | .syChkShort _ _ | .syGuardShort _ _ | .syWatchShort _ _
  | .syBrkShort _ _ | .sySysreqShort _ _ | .tgLook _ _ | .tgSet _ _ | .tgInv _ _ | .tgRead _ _
  | .tgLookShort _ _ | .tgSetShort _ _ | .tgInvShort _ _ | .tgReadShort _ _ | .crRd _ _ | .crWr _ _
  | .crRdShort _ _ | .crWrShort _ _ | .mDieHalfLost _ _ | .cDieLost _ _ => true

end Sys2Proof
end

