-- ==== Sys2Proof/Decode.lean ====
section
/-! DEFINITION. The encodings of spec/06_encoding.md R143 to R160 and of the Puzil op words (spec/11_puzil.md R278 to R280): the decoder,
total on any bits, and after it the encoder. A move is first cut into the fields of its format (`Move`), whose checks are those of R157 to
R159, and then named as an instruction. (`noncomputable` marks only that Lean's
runtime cannot build a constructor numbered above 244; every definition reduces in the kernel.) -/
namespace Sys2Proof

/-! ## Numbers of units and operations -/

/-- Unit numbers of spec/03_core.md R72. -/
def UnitId.num : UnitId → Nat
  | .ia0 => 0 | .ia1 => 1 | .im => 2 | .ls => 3 | .vx => 4 | .vp => 5 | .mx => 6 | .xf => 7 | .br => 8 | .sy => 9 | .tg => 10 | .cr => 11
def UnitId.ofNum : Nat → Option UnitId
  | 0 => some .ia0 | 1 => some .ia1 | 2 => some .im | 3 => some .ls | 4 => some .vx | 5 => some .vp | 6 => some .mx | 7 => some .xf
  | 8 => some .br | 9 => some .sy | 10 => some .tg | 11 => some .cr | _ => none
def IaUnit.unit : IaUnit → UnitId | .ia0 => .ia0 | .ia1 => .ia1
def HiUnit.unit : HiUnit → UnitId | .im => .im | .vp => .vp

/-- The unit that an operation triggers. -/
def Op.unit : Op → UnitId
  | .ia u _ => u.unit
  | .im _ => .im
  | .ls _ => .ls
  | .vx _ => .vx
  | .vp _ => .vp
  | .mx _ => .mx
  | .xf _ => .xf
  | .br _ => .br
  | .sy _ => .sy
  | .tg _ => .tg
  | .cr _ => .cr

/-- Trigger codes of R156. -/
def IaOp.code : IaOp → Nat
  | .add => 8 | .sub => 9 | .and => 10 | .or => 11 | .xor => 12 | .shl => 13 | .shr => 14 | .sra => 15 | .sel => 16 | .cmpeq => 17 | .cmplt => 18 | .cmpltu => 19 | .min => 20 | .max => 21 | .andn => 22 | .rotl => 23 | .minu => 24 | .maxu => 25 | .cmpne => 26 | .cmpge => 27 | .cmpgeu => 28 | .bfx => 29 | .bfi => 30 | .clz => 31 | .ctz => 32 | .popc => 33 | .pset => 34
def IaOp.ofCode : Nat → Option IaOp
  | 8 => some .add | 9 => some .sub | 10 => some .and | 11 => some .or | 12 => some .xor | 13 => some .shl | 14 => some .shr | 15 => some .sra | 16 => some .sel | 17 => some .cmpeq | 18 => some .cmplt | 19 => some .cmpltu | 20 => some .min | 21 => some .max | 22 => some .andn | 23 => some .rotl | 24 => some .minu | 25 => some .maxu | 26 => some .cmpne | 27 => some .cmpge | 28 => some .cmpgeu | 29 => some .bfx | 30 => some .bfi | 31 => some .clz | 32 => some .ctz | 33 => some .popc | 34 => some .pset | _ => none
/-- Trigger codes of R156. -/
def ImOp.code : ImOp → Nat
  | .mul => 8 | .mulh => 9 | .mulhu => 10 | .div => 11 | .divu => 12 | .rem => 13 | .remu => 14
def ImOp.ofCode : Nat → Option ImOp
  | 8 => some .mul | 9 => some .mulh | 10 => some .mulhu | 11 => some .div | 12 => some .divu | 13 => some .rem | 14 => some .remu | _ => none
/-- Trigger codes of R156. -/
def LsOp.code : LsOp → Nat
  | .ld8 => 8 | .ld8u => 9 | .ld16 => 10 | .ld16u => 11 | .ld32 => 12 | .ld32u => 13 | .ld64 => 14 | .ld256 => 15 | .st8 => 16 | .st16 => 17 | .st32 => 18 | .st64 => 19 | .st256 => 20 | .aadd => 21 | .aand => 22 | .aor => 23 | .axor => 24 | .amin => 25 | .amax => 26 | .aminu => 27 | .amaxu => 28 | .axchg => 29 | .acas => 30 | .afadd => 31 | .afmin => 32 | .afmax => 33
def LsOp.ofCode : Nat → Option LsOp
  | 8 => some .ld8 | 9 => some .ld8u | 10 => some .ld16 | 11 => some .ld16u | 12 => some .ld32 | 13 => some .ld32u | 14 => some .ld64 | 15 => some .ld256 | 16 => some .st8 | 17 => some .st16 | 18 => some .st32 | 19 => some .st64 | 20 => some .st256 | 21 => some .aadd | 22 => some .aand | 23 => some .aor | 24 => some .axor | 25 => some .amin | 26 => some .amax | 27 => some .aminu | 28 => some .amaxu | 29 => some .axchg | 30 => some .acas | 31 => some .afadd | 32 => some .afmin | 33 => some .afmax | _ => none
/-- Trigger codes of R156. -/
def VxOp.code : VxOp → Nat
  | .fadd => 8 | .fsub => 9 | .fmul => 10 | .fma => 11 | .fms => 12 | .fnma => 13 | .fmin => 14 | .fmax => 15 | .add => 16 | .sub => 17 | .and => 18 | .or => 19 | .xor => 20 | .max => 21 | .fabs => 22 | .fneg => 23 | .fdiv => 24 | .fsqrt => 25 | .fceq => 26 | .fclt => 27 | .fcle => 28 | .mul => 29 | .mulh => 30 | .andn => 31 | .shl => 32 | .shr => 33 | .sra => 34 | .min => 35 | .minu => 36 | .maxu => 37 | .adds => 38 | .subs => 39 | .addsu => 40 | .subsu => 41 | .ceq => 42 | .clt => 43 | .cltu => 44
def VxOp.ofCode : Nat → Option VxOp
  | 8 => some .fadd | 9 => some .fsub | 10 => some .fmul | 11 => some .fma | 12 => some .fms | 13 => some .fnma | 14 => some .fmin | 15 => some .fmax | 16 => some .add | 17 => some .sub | 18 => some .and | 19 => some .or | 20 => some .xor | 21 => some .max | 22 => some .fabs | 23 => some .fneg | 24 => some .fdiv | 25 => some .fsqrt | 26 => some .fceq | 27 => some .fclt | 28 => some .fcle | 29 => some .mul | 30 => some .mulh | 31 => some .andn | 32 => some .shl | 33 => some .shr | 34 => some .sra | 35 => some .min | 36 => some .minu | 37 => some .maxu | 38 => some .adds | 39 => some .subs | 40 => some .addsu | 41 => some .subsu | 42 => some .ceq | 43 => some .clt | 44 => some .cltu | _ => none
/-- Trigger codes of R156. -/
def VpOp.code : VpOp → Nat
  | .perm => 8 | .bcast => 9 | .slideup => 10 | .slidedn => 11 | .cvt => 12 | .rsum => 13 | .rmax => 14 | .rmin => 15 | .mand => 16 | .mor => 17 | .mxor => 18 | .mnot => 19 | .mpop => 20 | .iota => 21 | .rot => 22 | .ilv => 23 | .dilv => 24 | .compress => 25 | .expand => 26 | .cvtEf => 27 | .qblk => 28 | .dqblk => 29 | .rbsum => 30 | .mfirst => 31
def VpOp.ofCode : Nat → Option VpOp
  | 8 => some .perm | 9 => some .bcast | 10 => some .slideup | 11 => some .slidedn | 12 => some .cvt | 13 => some .rsum | 14 => some .rmax | 15 => some .rmin | 16 => some .mand | 17 => some .mor | 18 => some .mxor | 19 => some .mnot | 20 => some .mpop | 21 => some .iota | 22 => some .rot | 23 => some .ilv | 24 => some .dilv | 25 => some .compress | 26 => some .expand | 27 => some .cvtEf | 28 => some .qblk | 29 => some .dqblk | 30 => some .rbsum | 31 => some .mfirst | _ => none
/-- Trigger codes of R156. -/
def MxOp.code : MxOp → Nat
  | .mma => 8 | .mmas => 9 | .zero => 10 | .rrow => 11 | .rcol => 12 | .wrow => 13 | .wcol => 14 | .load => 15 | .store => 16 | .commit => 17 | .wait => 18 | .status => 19
def MxOp.ofCode : Nat → Option MxOp
  | 8 => some .mma | 9 => some .mmas | 10 => some .zero | 11 => some .rrow | 12 => some .rcol | 13 => some .wrow | 14 => some .wcol | 15 => some .load | 16 => some .store | 17 => some .commit | 18 => some .wait | 19 => some .status | _ => none
/-- Trigger codes of R156. -/
def XfOp.code : XfOp → Nat
  | .send => 8 | .recv => 9 | .getn => 10 | .putn => 11 | .getf => 12 | .putf => 13 | .gathf => 14 | .scatf => 15 | .amon => 16 | .flush => 17 | .commit => 18 | .wait => 19
def XfOp.ofCode : Nat → Option XfOp
  | 8 => some .send | 9 => some .recv | 10 => some .getn | 11 => some .putn | 12 => some .getf | 13 => some .putf | 14 => some .gathf | 15 => some .scatf | 16 => some .amon | 17 => some .flush | 18 => some .commit | 19 => some .wait | _ => none
/-- Trigger codes of R156. -/
def BrOp.code : BrOp → Nat
  | .jmp => 8 | .jr => 9 | .bz => 10 | .bnz => 11 | .bltz => 12 | .bgez => 13 | .beq => 14 | .call => 15 | .callr => 16 | .ret => 17 | .loop => 18
def BrOp.ofCode : Nat → Option BrOp
  | 8 => some .jmp | 9 => some .jr | 10 => some .bz | 11 => some .bnz | 12 => some .bltz | 13 => some .bgez | 14 => some .beq | 15 => some .call | 16 => some .callr | 17 => some .ret | 18 => some .loop | _ => none
/-- Trigger codes of R156. -/
def SyOp.code : SyOp → Nat
  | .sync => 8 | .arrive => 9 | .waitrel => 10 | .halt => 11 | .tfence => 12 | .phint => 13 | .cdopen => 14 | .cdclose => 15 | .ctrig => 16 | .chk => 17 | .guard => 18 | .watch => 19 | .brk => 20 | .sysreq => 21
def SyOp.ofCode : Nat → Option SyOp
  | 8 => some .sync | 9 => some .arrive | 10 => some .waitrel | 11 => some .halt | 12 => some .tfence | 13 => some .phint | 14 => some .cdopen | 15 => some .cdclose | 16 => some .ctrig | 17 => some .chk | 18 => some .guard | 19 => some .watch | 20 => some .brk | 21 => some .sysreq | _ => none
/-- Trigger codes of R156. -/
def TgOp.code : TgOp → Nat
  | .look => 8 | .set => 9 | .inv => 10 | .read => 11
def TgOp.ofCode : Nat → Option TgOp
  | 8 => some .look | 9 => some .set | 10 => some .inv | 11 => some .read | _ => none
/-- Trigger codes of R156. -/
def CrOp.code : CrOp → Nat
  | .rd => 8 | .wr => 9
def CrOp.ofCode : Nat → Option CrOp
  | 8 => some .rd | 9 => some .wr | _ => none

/-- The trigger code of an operation (R156). -/
def Op.code : Op → Nat
  | .ia _ o => o.code
  | .im o => o.code
  | .ls o => o.code
  | .vx o => o.code
  | .vp o => o.code
  | .mx o => o.code
  | .xf o => o.code
  | .br o => o.code
  | .sy o => o.code
  | .tg o => o.code
  | .cr o => o.code

/-- The operation of unit number `u` with trigger code `c`; none where R156 reserves it. -/
def Op.ofCode (u c : Nat) : Option Op :=
  match u with
  | 0 => (IaOp.ofCode c).map (.ia .ia0)
  | 1 => (IaOp.ofCode c).map (.ia .ia1)
  | 2 => (ImOp.ofCode c).map .im
  | 3 => (LsOp.ofCode c).map .ls
  | 4 => (VxOp.ofCode c).map .vx
  | 5 => (VpOp.ofCode c).map .vp
  | 6 => (MxOp.ofCode c).map .mx
  | 7 => (XfOp.ofCode c).map .xf
  | 8 => (BrOp.ofCode c).map .br
  | 9 => (SyOp.ofCode c).map .sy
  | 10 => (TgOp.ofCode c).map .tg
  | 11 => (CrOp.ofCode c).map .cr
  | _ => none

/-- The DST of a trigger: 128 * unit + code (R155). -/
def Op.dst (o : Op) : Nat := 128 * o.unit.num + o.code

/-! ## Modifiers (R157, R158) -/

/-- The triggers that accept a mask (R158). -/
def Op.maskable : Op → Bool
  | .vx _ => true
  | .ls .st256 => true
  | .vp o => match o with
    | .perm | .bcast | .slideup | .slidedn | .rot | .ilv | .dilv | .compress | .expand | .iota | .cvt | .cvtEf | .rsum | .rmax | .rmin => true
    | _ => false
  | _ => false

/-- The MOD values that R157 gives each operation. -/
def Op.modOk (o : Op) (m : Nat) : Bool :=
  match o with
  | .ls x => match x with
    | .aadd | .aand | .aor | .axor | .amin | .amax | .aminu | .amaxu | .axchg | .acas => decide (m < 4)
    | _ => decide (m < 2)
  | .vx x => match x with
    | .fadd | .fsub | .fmul | .fma | .fms | .fnma | .fmin | .fmax | .fabs | .fneg | .fdiv | .fsqrt | .fceq | .fclt | .fcle => m % 4 != 3
    | .and | .or | .xor | .andn => m == 0
    | _ => decide (m < 3)
  | .vp x => match x with
    | .perm | .bcast | .slideup | .slidedn | .rot | .ilv | .dilv | .compress | .expand | .iota | .qblk => decide (m ≤ 4)
    | .rsum | .rmax | .rmin => m != 7
    | .cvt => m % 2 == 0
    | .cvtEf => m == 0 || m == 2
    | _ => m == 0
  | .xf x => match x with
    | .getn | .getf | .gathf => decide (m < 2)
    | .putn | .putf | .scatf => m == 0 || m == 2
    | .amon => decide (m < 4)
    | _ => m == 0
  | .sy .chk => decide (m < 2)
  | _ => m == 0

/-- Does the operation with this MOD post-increment a pointer (P = 1, R157, R158)? -/
def Op.postInc (o : Op) (m : BitVec 3) : Bool := match o with | .ls _ => m.getLsbD 0 | _ => false

/-! ## Moves by format -/

/-- The destination of a short transport. -/
inductive SDst where
  | plain (d : ShortDst) | trig (o : Op)
deriving DecidableEq, Repr

/-- A move, cut into the fields of its format (R146 to R153). -/
inductive Move where
  | short (s : ShortSrc) (d : SDst) (e : Bool)
  | compact (o : Fin 16) (vd : BitVec 5) (vs : BitVec 4) (e : Bool)
  | transport (s : Src) (d : Dst) (q : Bool) (k : BitVec 3) (z : Bool) (m : BitVec 3) (e : Bool)
  | imm (d : Dst) (x : BitVec 16) (e : Bool)
  | long (d : Dst) (pos : LitPos) (lit : BitVec 32) (e : Bool)
  | idle (n : BitVec 24) (e : Bool)
  | nop (e : Bool)
deriving DecidableEq, Repr

/-- The checks of R159 on the fields of a move. -/
def Move.legal : Move → Bool
  | .transport s d q k z m _ =>
    (q || (k == 0 && !z)) &&
    (match d with
     | .plain _ => !q && m == 0
     | .trig o => (!q || o.maskable) && o.modOk m.toNat && (!o.postInc m || s.isP))
  | _ => true

/-- MOD from its three bits. -/
def modBits (b2 b1 b0 : Bool) : BitVec 3 := BitVec.ofBool b2 ++ BitVec.ofBool b1 ++ BitVec.ofBool b0
/-- A plain source of a short transport. -/
def ShortSrc.wide : ShortSrc → Src | .g n => .g (n.castLE (by decide)) | .r u => .r u

/-- The instruction of a legal transport to a trigger. -/
noncomputable def Instr.ofTrigger (o : Op) (s : Src) (q : Bool) (k : BitVec 3) (z : Bool) (m : BitVec 3) (e : Bool) : Instr :=
  match o with
  | .ia u .add => .iaAdd u s e
  | .ia u .sub => .iaSub u s e
  | .ia u .and => .iaAnd u s e
  | .ia u .or => .iaOr u s e
  | .ia u .xor => .iaXor u s e
  | .ia u .shl => .iaShl u s e
  | .ia u .shr => .iaShr u s e
  | .ia u .sra => .iaSra u s e
  | .ia u .sel => .iaSel u s e
  | .ia u .cmpeq => .iaCmpeq u s e
  | .ia u .cmplt => .iaCmplt u s e
  | .ia u .cmpltu => .iaCmpltu u s e
  | .ia u .min => .iaMin u s e
  | .ia u .max => .iaMax u s e
  | .ia u .andn => .iaAndn u s e
  | .ia u .rotl => .iaRotl u s e
  | .ia u .minu => .iaMinu u s e
  | .ia u .maxu => .iaMaxu u s e
  | .ia u .cmpne => .iaCmpne u s e
  | .ia u .cmpge => .iaCmpge u s e
  | .ia u .cmpgeu => .iaCmpgeu u s e
  | .ia u .bfx => .iaBfx u s e
  | .ia u .bfi => .iaBfi u s e
  | .ia u .clz => .iaClz u s e
  | .ia u .ctz => .iaCtz u s e
  | .ia u .popc => .iaPopc u s e
  | .ia u .pset => .iaPset u s e
  | .im .mul => .imMul s e
  | .im .mulh => .imMulh s e
  | .im .mulhu => .imMulhu s e
  | .im .div => .imDiv s e
  | .im .divu => .imDivu s e
  | .im .rem => .imRem s e
  | .im .remu => .imRemu s e
  | .ls .ld8 => .lsLd8 (m.getLsbD 0) s e
  | .ls .ld8u => .lsLd8u (m.getLsbD 0) s e
  | .ls .ld16 => .lsLd16 (m.getLsbD 0) s e
  | .ls .ld16u => .lsLd16u (m.getLsbD 0) s e
  | .ls .ld32 => .lsLd32 (m.getLsbD 0) s e
  | .ls .ld32u => .lsLd32u (m.getLsbD 0) s e
  | .ls .ld64 => .lsLd64 (m.getLsbD 0) s e
  | .ls .ld256 => .lsLd256 (m.getLsbD 0) s e
  | .ls .st8 => .lsSt8 (m.getLsbD 0) s e
  | .ls .st16 => .lsSt16 (m.getLsbD 0) s e
  | .ls .st32 => .lsSt32 (m.getLsbD 0) s e
  | .ls .st64 => .lsSt64 (m.getLsbD 0) s e
  | .ls .st256 => .lsSt256 (m.getLsbD 0) z k q s e
  | .ls .aadd => .lsAadd (m.getLsbD 1) (m.getLsbD 0) s e
  | .ls .aand => .lsAand (m.getLsbD 1) (m.getLsbD 0) s e
  | .ls .aor => .lsAor (m.getLsbD 1) (m.getLsbD 0) s e
  | .ls .axor => .lsAxor (m.getLsbD 1) (m.getLsbD 0) s e
  | .ls .amin => .lsAmin (m.getLsbD 1) (m.getLsbD 0) s e
  | .ls .amax => .lsAmax (m.getLsbD 1) (m.getLsbD 0) s e
  | .ls .aminu => .lsAminu (m.getLsbD 1) (m.getLsbD 0) s e
  | .ls .amaxu => .lsAmaxu (m.getLsbD 1) (m.getLsbD 0) s e
  | .ls .axchg => .lsAxchg (m.getLsbD 1) (m.getLsbD 0) s e
  | .ls .acas => .lsAcas (m.getLsbD 1) (m.getLsbD 0) s e
  | .ls .afadd => .lsAfadd (m.getLsbD 0) s e
  | .ls .afmin => .lsAfmin (m.getLsbD 0) s e
  | .ls .afmax => .lsAfmax (m.getLsbD 0) s e
  | .vx .fadd => .vxFadd m z k q s e
  | .vx .fsub => .vxFsub m z k q s e
  | .vx .fmul => .vxFmul m z k q s e
  | .vx .fma => .vxFma m z k q s e
  | .vx .fms => .vxFms m z k q s e
  | .vx .fnma => .vxFnma m z k q s e
  | .vx .fmin => .vxFmin m z k q s e
  | .vx .fmax => .vxFmax m z k q s e
  | .vx .add => .vxAdd (m.setWidth 2) z k q s e
  | .vx .sub => .vxSub (m.setWidth 2) z k q s e
  | .vx .and => .vxAnd z k q s e
  | .vx .or => .vxOr z k q s e
  | .vx .xor => .vxXor z k q s e
  | .vx .max => .vxMax (m.setWidth 2) z k q s e
  | .vx .fabs => .vxFabs m z k q s e
  | .vx .fneg => .vxFneg m z k q s e
  | .vx .fdiv => .vxFdiv m z k q s e
  | .vx .fsqrt => .vxFsqrt m z k q s e
  | .vx .fceq => .vxFceq m z k q s e
  | .vx .fclt => .vxFclt m z k q s e
  | .vx .fcle => .vxFcle m z k q s e
  | .vx .mul => .vxMul (m.setWidth 2) z k q s e
  | .vx .mulh => .vxMulh (m.setWidth 2) z k q s e
  | .vx .andn => .vxAndn z k q s e
  | .vx .shl => .vxShl (m.setWidth 2) z k q s e
  | .vx .shr => .vxShr (m.setWidth 2) z k q s e
  | .vx .sra => .vxSra (m.setWidth 2) z k q s e
  | .vx .min => .vxMin (m.setWidth 2) z k q s e
  | .vx .minu => .vxMinu (m.setWidth 2) z k q s e
  | .vx .maxu => .vxMaxu (m.setWidth 2) z k q s e
  | .vx .adds => .vxAdds (m.setWidth 2) z k q s e
  | .vx .subs => .vxSubs (m.setWidth 2) z k q s e
  | .vx .addsu => .vxAddsu (m.setWidth 2) z k q s e
  | .vx .subsu => .vxSubsu (m.setWidth 2) z k q s e
  | .vx .ceq => .vxCeq (m.setWidth 2) z k q s e
  | .vx .clt => .vxClt (m.setWidth 2) z k q s e
  | .vx .cltu => .vxCltu (m.setWidth 2) z k q s e
  | .vp .perm => .vpPerm m z k q s e
  | .vp .bcast => .vpBcast m z k q s e
  | .vp .slideup => .vpSlideup m z k q s e
  | .vp .slidedn => .vpSlidedn m z k q s e
  | .vp .cvt => .vpCvt (m.getLsbD 2) (m.getLsbD 1) z k q s e
  | .vp .rsum => .vpRsum m z k q s e
  | .vp .rmax => .vpRmax m z k q s e
  | .vp .rmin => .vpRmin m z k q s e
  | .vp .mand => .vpMand s e
  | .vp .mor => .vpMor s e
  | .vp .mxor => .vpMxor s e
  | .vp .mnot => .vpMnot s e
  | .vp .mpop => .vpMpop s e
  | .vp .iota => .vpIota m z k q s e
  | .vp .rot => .vpRot m z k q s e
  | .vp .ilv => .vpIlv m z k q s e
  | .vp .dilv => .vpDilv m z k q s e
  | .vp .compress => .vpCompress m z k q s e
  | .vp .expand => .vpExpand m z k q s e
  | .vp .cvtEf => .vpCvtEf (m.getLsbD 1) z k q s e
  | .vp .qblk => .vpQblk m s e
  | .vp .dqblk => .vpDqblk s e
  | .vp .rbsum => .vpRbsum s e
  | .vp .mfirst => .vpMfirst s e
  | .mx .mma => .mxMma s e
  | .mx .mmas => .mxMmas s e
  | .mx .zero => .mxZero s e
  | .mx .rrow => .mxRrow s e
  | .mx .rcol => .mxRcol s e
  | .mx .wrow => .mxWrow s e
  | .mx .wcol => .mxWcol s e
  | .mx .load => .mxLoad s e
  | .mx .store => .mxStore s e
  | .mx .commit => .mxCommit s e
  | .mx .wait => .mxWait s e
  | .mx .status => .mxStatus s e
  | .xf .send => .xfSend s e
  | .xf .recv => .xfRecv s e
  | .xf .getn => .xfGetn (m.getLsbD 0) s e
  | .xf .putn => .xfPutn (m.getLsbD 1) s e
  | .xf .getf => .xfGetf (m.getLsbD 0) s e
  | .xf .putf => .xfPutf (m.getLsbD 1) s e
  | .xf .gathf => .xfGathf (m.getLsbD 0) s e
  | .xf .scatf => .xfScatf (m.getLsbD 1) s e
  | .xf .amon => .xfAmon (m.getLsbD 1) (m.getLsbD 0) s e
  | .xf .flush => .xfFlush s e
  | .xf .commit => .xfCommit s e
  | .xf .wait => .xfWait s e
  | .br .jmp => .brJmp s e
  | .br .jr => .brJr s e
  | .br .bz => .brBz s e
  | .br .bnz => .brBnz s e
  | .br .bltz => .brBltz s e
  | .br .bgez => .brBgez s e
  | .br .beq => .brBeq s e
  | .br .call => .brCall s e
  | .br .callr => .brCallr s e
  | .br .ret => .brRet s e
  | .br .loop => .brLoop s e
  | .sy .sync => .sySync s e
  | .sy .arrive => .syArrive s e
  | .sy .waitrel => .syWaitrel s e
  | .sy .halt => .syHalt s e
  | .sy .tfence => .syTfence s e
  | .sy .phint => .syPhint s e
  | .sy .cdopen => .syCdopen s e
  | .sy .cdclose => .syCdclose s e
  | .sy .ctrig => .syCtrig s e
  | .sy .chk => .syChk (m.getLsbD 0) s e
  | .sy .guard => .syGuard s e
  | .sy .watch => .syWatch s e
  | .sy .brk => .syBrk s e
  | .sy .sysreq => .sySysreq s e
  | .tg .look => .tgLook s e
  | .tg .set => .tgSet s e
  | .tg .inv => .tgInv s e
  | .tg .read => .tgRead s e
  | .cr .rd => .crRd s e
  | .cr .wr => .crWr s e

/-- The instruction of a short transport to a trigger of codes 8 to 21 (R147). -/
noncomputable def Instr.ofShort (o : Op) (s : ShortSrc) (e : Bool) : Option Instr :=
  match o with
  | .ia .ia0 .add => some (.ia0AddShort s e)
  | .ia .ia1 .add => some (.ia1AddShort s e)
  | .ia .ia0 .sub => some (.ia0SubShort s e)
  | .ia .ia1 .sub => some (.ia1SubShort s e)
  | .ia .ia0 .and => some (.ia0AndShort s e)
  | .ia .ia1 .and => some (.ia1AndShort s e)
  | .ia .ia0 .or => some (.ia0OrShort s e)
  | .ia .ia1 .or => some (.ia1OrShort s e)
  | .ia .ia0 .xor => some (.ia0XorShort s e)
  | .ia .ia1 .xor => some (.ia1XorShort s e)
  | .ia .ia0 .shl => some (.ia0ShlShort s e)
  | .ia .ia1 .shl => some (.ia1ShlShort s e)
  | .ia .ia0 .shr => some (.ia0ShrShort s e)
  | .ia .ia1 .shr => some (.ia1ShrShort s e)
  | .ia .ia0 .sra => some (.ia0SraShort s e)
  | .ia .ia1 .sra => some (.ia1SraShort s e)
  | .ia .ia0 .sel => some (.ia0SelShort s e)
  | .ia .ia1 .sel => some (.ia1SelShort s e)
  | .ia .ia0 .cmpeq => some (.ia0CmpeqShort s e)
  | .ia .ia1 .cmpeq => some (.ia1CmpeqShort s e)
  | .ia .ia0 .cmplt => some (.ia0CmpltShort s e)
  | .ia .ia1 .cmplt => some (.ia1CmpltShort s e)
  | .ia .ia0 .cmpltu => some (.ia0CmpltuShort s e)
  | .ia .ia1 .cmpltu => some (.ia1CmpltuShort s e)
  | .ia .ia0 .min => some (.ia0MinShort s e)
  | .ia .ia1 .min => some (.ia1MinShort s e)
  | .ia .ia0 .max => some (.ia0MaxShort s e)
  | .ia .ia1 .max => some (.ia1MaxShort s e)
  | .im .mul => some (.imMulShort s e)
  | .im .mulh => some (.imMulhShort s e)
  | .im .mulhu => some (.imMulhuShort s e)
  | .im .div => some (.imDivShort s e)
  | .im .divu => some (.imDivuShort s e)
  | .im .rem => some (.imRemShort s e)
  | .im .remu => some (.imRemuShort s e)
  | .ls .ld8 => some (.lsLd8Short s e)
  | .ls .ld8u => some (.lsLd8uShort s e)
  | .ls .ld16 => some (.lsLd16Short s e)
  | .ls .ld16u => some (.lsLd16uShort s e)
  | .ls .ld32 => some (.lsLd32Short s e)
  | .ls .ld32u => some (.lsLd32uShort s e)
  | .ls .ld64 => some (.lsLd64Short s e)
  | .ls .ld256 => some (.lsLd256Short s e)
  | .ls .st8 => some (.lsSt8Short s e)
  | .ls .st16 => some (.lsSt16Short s e)
  | .ls .st32 => some (.lsSt32Short s e)
  | .ls .st64 => some (.lsSt64Short s e)
  | .ls .st256 => some (.lsSt256Short s e)
  | .ls .aadd => some (.lsAaddShort s e)
  | .vx .fadd => some (.vxFaddShort s e)
  | .vx .fsub => some (.vxFsubShort s e)
  | .vx .fmul => some (.vxFmulShort s e)
  | .vx .fma => some (.vxFmaShort s e)
  | .vx .fms => some (.vxFmsShort s e)
  | .vx .fnma => some (.vxFnmaShort s e)
  | .vx .fmin => some (.vxFminShort s e)
  | .vx .fmax => some (.vxFmaxShort s e)
  | .vx .add => some (.vxAddShort s e)
  | .vx .sub => some (.vxSubShort s e)
  | .vx .and => some (.vxAndShort s e)
  | .vx .or => some (.vxOrShort s e)
  | .vx .xor => some (.vxXorShort s e)
  | .vx .max => some (.vxMaxShort s e)
  | .vp .perm => some (.vpPermShort s e)
  | .vp .bcast => some (.vpBcastShort s e)
  | .vp .slideup => some (.vpSlideupShort s e)
  | .vp .slidedn => some (.vpSlidednShort s e)
  | .vp .cvt => some (.vpCvtShort s e)
  | .vp .rsum => some (.vpRsumShort s e)
  | .vp .rmax => some (.vpRmaxShort s e)
  | .vp .rmin => some (.vpRminShort s e)
  | .vp .mand => some (.vpMandShort s e)
  | .vp .mor => some (.vpMorShort s e)
  | .vp .mxor => some (.vpMxorShort s e)
  | .vp .mnot => some (.vpMnotShort s e)
  | .vp .mpop => some (.vpMpopShort s e)
  | .vp .iota => some (.vpIotaShort s e)
  | .mx .mma => some (.mxMmaShort s e)
  | .mx .mmas => some (.mxMmasShort s e)
  | .mx .zero => some (.mxZeroShort s e)
  | .mx .rrow => some (.mxRrowShort s e)
  | .mx .rcol => some (.mxRcolShort s e)
  | .mx .wrow => some (.mxWrowShort s e)
  | .mx .wcol => some (.mxWcolShort s e)
  | .mx .load => some (.mxLoadShort s e)
  | .mx .store => some (.mxStoreShort s e)
  | .mx .commit => some (.mxCommitShort s e)
  | .mx .wait => some (.mxWaitShort s e)
  | .mx .status => some (.mxStatusShort s e)
  | .xf .send => some (.xfSendShort s e)
  | .xf .recv => some (.xfRecvShort s e)
  | .xf .getn => some (.xfGetnShort s e)
  | .xf .putn => some (.xfPutnShort s e)
  | .xf .getf => some (.xfGetfShort s e)
  | .xf .putf => some (.xfPutfShort s e)
  | .xf .gathf => some (.xfGathfShort s e)
  | .xf .scatf => some (.xfScatfShort s e)
  | .xf .amon => some (.xfAmonShort s e)
  | .xf .flush => some (.xfFlushShort s e)
  | .xf .commit => some (.xfCommitShort s e)
  | .xf .wait => some (.xfWaitShort s e)
  | .br .jmp => some (.brJmpShort s e)
  | .br .jr => some (.brJrShort s e)
  | .br .bz => some (.brBzShort s e)
  | .br .bnz => some (.brBnzShort s e)
  | .br .bltz => some (.brBltzShort s e)
  | .br .bgez => some (.brBgezShort s e)
  | .br .beq => some (.brBeqShort s e)
  | .br .call => some (.brCallShort s e)
  | .br .callr => some (.brCallrShort s e)
  | .br .ret => some (.brRetShort s e)
  | .br .loop => some (.brLoopShort s e)
  | .sy .sync => some (.sySyncShort s e)
  | .sy .arrive => some (.syArriveShort s e)
  | .sy .waitrel => some (.syWaitrelShort s e)
  | .sy .halt => some (.syHaltShort s e)
  | .sy .tfence => some (.syTfenceShort s e)
  | .sy .phint => some (.syPhintShort s e)
  | .sy .cdopen => some (.syCdopenShort s e)
  | .sy .cdclose => some (.syCdcloseShort s e)
  | .sy .ctrig => some (.syCtrigShort s e)
  | .sy .chk => some (.syChkShort s e)
  | .sy .guard => some (.syGuardShort s e)
  | .sy .watch => some (.syWatchShort s e)
  | .sy .brk => some (.syBrkShort s e)
  | .sy .sysreq => some (.sySysreqShort s e)
  | .tg .look => some (.tgLookShort s e)
  | .tg .set => some (.tgSetShort s e)
  | .tg .inv => some (.tgInvShort s e)
  | .tg .read => some (.tgReadShort s e)
  | .cr .rd => some (.crRdShort s e)
  | .cr .wr => some (.crWrShort s e)
  | _ => none

/-- The instruction of a compact op, by OP4 (R148). -/
noncomputable def Instr.ofCompact (o : Fin 16) (vd : BitVec 5) (vs : BitVec 4) (e : Bool) : Instr :=
  match o.val with
  | 0 => .faddCompact vd vs e
  | 1 => .fsubCompact vd vs e
  | 2 => .fmulCompact vd vs e
  | 3 => .fminCompact vd vs e
  | 4 => .fmaxCompact vd vs e
  | 5 => .baddCompact vd vs e
  | 6 => .bmulCompact vd vs e
  | 7 => .addCompact vd vs e
  | 8 => .subCompact vd vs e
  | 9 => .maxCompact vd vs e
  | 10 => .minCompact vd vs e
  | 11 => .andCompact vd vs e
  | 12 => .orCompact vd vs e
  | 13 => .xorCompact vd vs e
  | 14 => .andnCompact vd vs e
  | _ => .permCompact vd vs e

/-- The instruction that a legal move is. -/
noncomputable def Instr.ofMove : Move → Option Instr
  | .short s (.plain d) e => some (.shortTransportMove d s e)
  | .short s (.trig o) e => Instr.ofShort o s e
  | .compact o vd vs e => some (Instr.ofCompact o vd vs e)
  | .transport s (.plain d) _ _ _ _ e => some (.transportMove d s e)
  | .transport s (.trig o) q k z m e => some (Instr.ofTrigger o s q k z m e)
  | .imm d x e => some (.immediateMove d x e)
  | .long d pos lit e => some (.longImmediateMove d pos lit e)
  | .idle n e => some (.idle n e)
  | .nop e => some (.nop e)

/-- The move that an instruction is; none for an event or a Puzil op. -/
def Instr.toMove : Instr → Option Move
  | .transportMove d s e => some (.transport s (.plain d) false 0 false 0 e)
  | .shortTransportMove d s e => some (.short s (.plain d) e)
  | .immediateMove d x e => some (.imm d x e)
  | .longImmediateMove d pos lit e => some (.long d pos lit e)
  | .idle n e => some (.idle n e)
  | .nop e => some (.nop e)
  | .faddCompact vd vs e => some (.compact 0 vd vs e)
  | .fsubCompact vd vs e => some (.compact 1 vd vs e)
  | .fmulCompact vd vs e => some (.compact 2 vd vs e)
  | .fminCompact vd vs e => some (.compact 3 vd vs e)
  | .fmaxCompact vd vs e => some (.compact 4 vd vs e)
  | .baddCompact vd vs e => some (.compact 5 vd vs e)
  | .bmulCompact vd vs e => some (.compact 6 vd vs e)
  | .addCompact vd vs e => some (.compact 7 vd vs e)
  | .subCompact vd vs e => some (.compact 8 vd vs e)
  | .maxCompact vd vs e => some (.compact 9 vd vs e)
  | .minCompact vd vs e => some (.compact 10 vd vs e)
  | .andCompact vd vs e => some (.compact 11 vd vs e)
  | .orCompact vd vs e => some (.compact 12 vd vs e)
  | .xorCompact vd vs e => some (.compact 13 vd vs e)
  | .andnCompact vd vs e => some (.compact 14 vd vs e)
  | .permCompact vd vs e => some (.compact 15 vd vs e)
  | .ia0AddShort s e => some (.short s (.trig (.ia .ia0 .add)) e)
  | .ia1AddShort s e => some (.short s (.trig (.ia .ia1 .add)) e)
  | .ia0SubShort s e => some (.short s (.trig (.ia .ia0 .sub)) e)
  | .ia1SubShort s e => some (.short s (.trig (.ia .ia1 .sub)) e)
  | .ia0AndShort s e => some (.short s (.trig (.ia .ia0 .and)) e)
  | .ia1AndShort s e => some (.short s (.trig (.ia .ia1 .and)) e)
  | .ia0OrShort s e => some (.short s (.trig (.ia .ia0 .or)) e)
  | .ia1OrShort s e => some (.short s (.trig (.ia .ia1 .or)) e)
  | .ia0XorShort s e => some (.short s (.trig (.ia .ia0 .xor)) e)
  | .ia1XorShort s e => some (.short s (.trig (.ia .ia1 .xor)) e)
  | .ia0ShlShort s e => some (.short s (.trig (.ia .ia0 .shl)) e)
  | .ia1ShlShort s e => some (.short s (.trig (.ia .ia1 .shl)) e)
  | .ia0ShrShort s e => some (.short s (.trig (.ia .ia0 .shr)) e)
  | .ia1ShrShort s e => some (.short s (.trig (.ia .ia1 .shr)) e)
  | .ia0SraShort s e => some (.short s (.trig (.ia .ia0 .sra)) e)
  | .ia1SraShort s e => some (.short s (.trig (.ia .ia1 .sra)) e)
  | .ia0SelShort s e => some (.short s (.trig (.ia .ia0 .sel)) e)
  | .ia1SelShort s e => some (.short s (.trig (.ia .ia1 .sel)) e)
  | .ia0CmpeqShort s e => some (.short s (.trig (.ia .ia0 .cmpeq)) e)
  | .ia1CmpeqShort s e => some (.short s (.trig (.ia .ia1 .cmpeq)) e)
  | .ia0CmpltShort s e => some (.short s (.trig (.ia .ia0 .cmplt)) e)
  | .ia1CmpltShort s e => some (.short s (.trig (.ia .ia1 .cmplt)) e)
  | .ia0CmpltuShort s e => some (.short s (.trig (.ia .ia0 .cmpltu)) e)
  | .ia1CmpltuShort s e => some (.short s (.trig (.ia .ia1 .cmpltu)) e)
  | .ia0MinShort s e => some (.short s (.trig (.ia .ia0 .min)) e)
  | .ia1MinShort s e => some (.short s (.trig (.ia .ia1 .min)) e)
  | .ia0MaxShort s e => some (.short s (.trig (.ia .ia0 .max)) e)
  | .ia1MaxShort s e => some (.short s (.trig (.ia .ia1 .max)) e)
  | .imMulShort s e => some (.short s (.trig (.im .mul)) e)
  | .imMulhShort s e => some (.short s (.trig (.im .mulh)) e)
  | .imMulhuShort s e => some (.short s (.trig (.im .mulhu)) e)
  | .imDivShort s e => some (.short s (.trig (.im .div)) e)
  | .imDivuShort s e => some (.short s (.trig (.im .divu)) e)
  | .imRemShort s e => some (.short s (.trig (.im .rem)) e)
  | .imRemuShort s e => some (.short s (.trig (.im .remu)) e)
  | .lsLd8Short s e => some (.short s (.trig (.ls .ld8)) e)
  | .lsLd8uShort s e => some (.short s (.trig (.ls .ld8u)) e)
  | .lsLd16Short s e => some (.short s (.trig (.ls .ld16)) e)
  | .lsLd16uShort s e => some (.short s (.trig (.ls .ld16u)) e)
  | .lsLd32Short s e => some (.short s (.trig (.ls .ld32)) e)
  | .lsLd32uShort s e => some (.short s (.trig (.ls .ld32u)) e)
  | .lsLd64Short s e => some (.short s (.trig (.ls .ld64)) e)
  | .lsLd256Short s e => some (.short s (.trig (.ls .ld256)) e)
  | .lsSt8Short s e => some (.short s (.trig (.ls .st8)) e)
  | .lsSt16Short s e => some (.short s (.trig (.ls .st16)) e)
  | .lsSt32Short s e => some (.short s (.trig (.ls .st32)) e)
  | .lsSt64Short s e => some (.short s (.trig (.ls .st64)) e)
  | .lsSt256Short s e => some (.short s (.trig (.ls .st256)) e)
  | .lsAaddShort s e => some (.short s (.trig (.ls .aadd)) e)
  | .vxFaddShort s e => some (.short s (.trig (.vx .fadd)) e)
  | .vxFsubShort s e => some (.short s (.trig (.vx .fsub)) e)
  | .vxFmulShort s e => some (.short s (.trig (.vx .fmul)) e)
  | .vxFmaShort s e => some (.short s (.trig (.vx .fma)) e)
  | .vxFmsShort s e => some (.short s (.trig (.vx .fms)) e)
  | .vxFnmaShort s e => some (.short s (.trig (.vx .fnma)) e)
  | .vxFminShort s e => some (.short s (.trig (.vx .fmin)) e)
  | .vxFmaxShort s e => some (.short s (.trig (.vx .fmax)) e)
  | .vxAddShort s e => some (.short s (.trig (.vx .add)) e)
  | .vxSubShort s e => some (.short s (.trig (.vx .sub)) e)
  | .vxAndShort s e => some (.short s (.trig (.vx .and)) e)
  | .vxOrShort s e => some (.short s (.trig (.vx .or)) e)
  | .vxXorShort s e => some (.short s (.trig (.vx .xor)) e)
  | .vxMaxShort s e => some (.short s (.trig (.vx .max)) e)
  | .vpPermShort s e => some (.short s (.trig (.vp .perm)) e)
  | .vpBcastShort s e => some (.short s (.trig (.vp .bcast)) e)
  | .vpSlideupShort s e => some (.short s (.trig (.vp .slideup)) e)
  | .vpSlidednShort s e => some (.short s (.trig (.vp .slidedn)) e)
  | .vpCvtShort s e => some (.short s (.trig (.vp .cvt)) e)
  | .vpRsumShort s e => some (.short s (.trig (.vp .rsum)) e)
  | .vpRmaxShort s e => some (.short s (.trig (.vp .rmax)) e)
  | .vpRminShort s e => some (.short s (.trig (.vp .rmin)) e)
  | .vpMandShort s e => some (.short s (.trig (.vp .mand)) e)
  | .vpMorShort s e => some (.short s (.trig (.vp .mor)) e)
  | .vpMxorShort s e => some (.short s (.trig (.vp .mxor)) e)
  | .vpMnotShort s e => some (.short s (.trig (.vp .mnot)) e)
  | .vpMpopShort s e => some (.short s (.trig (.vp .mpop)) e)
  | .vpIotaShort s e => some (.short s (.trig (.vp .iota)) e)
  | .mxMmaShort s e => some (.short s (.trig (.mx .mma)) e)
  | .mxMmasShort s e => some (.short s (.trig (.mx .mmas)) e)
  | .mxZeroShort s e => some (.short s (.trig (.mx .zero)) e)
  | .mxRrowShort s e => some (.short s (.trig (.mx .rrow)) e)
  | .mxRcolShort s e => some (.short s (.trig (.mx .rcol)) e)
  | .mxWrowShort s e => some (.short s (.trig (.mx .wrow)) e)
  | .mxWcolShort s e => some (.short s (.trig (.mx .wcol)) e)
  | .mxLoadShort s e => some (.short s (.trig (.mx .load)) e)
  | .mxStoreShort s e => some (.short s (.trig (.mx .store)) e)
  | .mxCommitShort s e => some (.short s (.trig (.mx .commit)) e)
  | .mxWaitShort s e => some (.short s (.trig (.mx .wait)) e)
  | .mxStatusShort s e => some (.short s (.trig (.mx .status)) e)
  | .xfSendShort s e => some (.short s (.trig (.xf .send)) e)
  | .xfRecvShort s e => some (.short s (.trig (.xf .recv)) e)
  | .xfGetnShort s e => some (.short s (.trig (.xf .getn)) e)
  | .xfPutnShort s e => some (.short s (.trig (.xf .putn)) e)
  | .xfGetfShort s e => some (.short s (.trig (.xf .getf)) e)
  | .xfPutfShort s e => some (.short s (.trig (.xf .putf)) e)
  | .xfGathfShort s e => some (.short s (.trig (.xf .gathf)) e)
  | .xfScatfShort s e => some (.short s (.trig (.xf .scatf)) e)
  | .xfAmonShort s e => some (.short s (.trig (.xf .amon)) e)
  | .xfFlushShort s e => some (.short s (.trig (.xf .flush)) e)
  | .xfCommitShort s e => some (.short s (.trig (.xf .commit)) e)
  | .xfWaitShort s e => some (.short s (.trig (.xf .wait)) e)
  | .brJmpShort s e => some (.short s (.trig (.br .jmp)) e)
  | .brJrShort s e => some (.short s (.trig (.br .jr)) e)
  | .brBzShort s e => some (.short s (.trig (.br .bz)) e)
  | .brBnzShort s e => some (.short s (.trig (.br .bnz)) e)
  | .brBltzShort s e => some (.short s (.trig (.br .bltz)) e)
  | .brBgezShort s e => some (.short s (.trig (.br .bgez)) e)
  | .brBeqShort s e => some (.short s (.trig (.br .beq)) e)
  | .brCallShort s e => some (.short s (.trig (.br .call)) e)
  | .brCallrShort s e => some (.short s (.trig (.br .callr)) e)
  | .brRetShort s e => some (.short s (.trig (.br .ret)) e)
  | .brLoopShort s e => some (.short s (.trig (.br .loop)) e)
  | .sySyncShort s e => some (.short s (.trig (.sy .sync)) e)
  | .syArriveShort s e => some (.short s (.trig (.sy .arrive)) e)
  | .syWaitrelShort s e => some (.short s (.trig (.sy .waitrel)) e)
  | .syHaltShort s e => some (.short s (.trig (.sy .halt)) e)
  | .syTfenceShort s e => some (.short s (.trig (.sy .tfence)) e)
  | .syPhintShort s e => some (.short s (.trig (.sy .phint)) e)
  | .syCdopenShort s e => some (.short s (.trig (.sy .cdopen)) e)
  | .syCdcloseShort s e => some (.short s (.trig (.sy .cdclose)) e)
  | .syCtrigShort s e => some (.short s (.trig (.sy .ctrig)) e)
  | .syChkShort s e => some (.short s (.trig (.sy .chk)) e)
  | .syGuardShort s e => some (.short s (.trig (.sy .guard)) e)
  | .syWatchShort s e => some (.short s (.trig (.sy .watch)) e)
  | .syBrkShort s e => some (.short s (.trig (.sy .brk)) e)
  | .sySysreqShort s e => some (.short s (.trig (.sy .sysreq)) e)
  | .tgLookShort s e => some (.short s (.trig (.tg .look)) e)
  | .tgSetShort s e => some (.short s (.trig (.tg .set)) e)
  | .tgInvShort s e => some (.short s (.trig (.tg .inv)) e)
  | .tgReadShort s e => some (.short s (.trig (.tg .read)) e)
  | .crRdShort s e => some (.short s (.trig (.cr .rd)) e)
  | .crWrShort s e => some (.short s (.trig (.cr .wr)) e)
  | .iaAdd u s e => some (.transport s (.trig (.ia u .add)) false 0 false 0 e)
  | .iaSub u s e => some (.transport s (.trig (.ia u .sub)) false 0 false 0 e)
  | .iaAnd u s e => some (.transport s (.trig (.ia u .and)) false 0 false 0 e)
  | .iaOr u s e => some (.transport s (.trig (.ia u .or)) false 0 false 0 e)
  | .iaXor u s e => some (.transport s (.trig (.ia u .xor)) false 0 false 0 e)
  | .iaShl u s e => some (.transport s (.trig (.ia u .shl)) false 0 false 0 e)
  | .iaShr u s e => some (.transport s (.trig (.ia u .shr)) false 0 false 0 e)
  | .iaSra u s e => some (.transport s (.trig (.ia u .sra)) false 0 false 0 e)
  | .iaSel u s e => some (.transport s (.trig (.ia u .sel)) false 0 false 0 e)
  | .iaCmpeq u s e => some (.transport s (.trig (.ia u .cmpeq)) false 0 false 0 e)
  | .iaCmplt u s e => some (.transport s (.trig (.ia u .cmplt)) false 0 false 0 e)
  | .iaCmpltu u s e => some (.transport s (.trig (.ia u .cmpltu)) false 0 false 0 e)
  | .iaMin u s e => some (.transport s (.trig (.ia u .min)) false 0 false 0 e)
  | .iaMax u s e => some (.transport s (.trig (.ia u .max)) false 0 false 0 e)
  | .iaAndn u s e => some (.transport s (.trig (.ia u .andn)) false 0 false 0 e)
  | .iaRotl u s e => some (.transport s (.trig (.ia u .rotl)) false 0 false 0 e)
  | .iaMinu u s e => some (.transport s (.trig (.ia u .minu)) false 0 false 0 e)
  | .iaMaxu u s e => some (.transport s (.trig (.ia u .maxu)) false 0 false 0 e)
  | .iaCmpne u s e => some (.transport s (.trig (.ia u .cmpne)) false 0 false 0 e)
  | .iaCmpge u s e => some (.transport s (.trig (.ia u .cmpge)) false 0 false 0 e)
  | .iaCmpgeu u s e => some (.transport s (.trig (.ia u .cmpgeu)) false 0 false 0 e)
  | .iaBfx u s e => some (.transport s (.trig (.ia u .bfx)) false 0 false 0 e)
  | .iaBfi u s e => some (.transport s (.trig (.ia u .bfi)) false 0 false 0 e)
  | .iaClz u s e => some (.transport s (.trig (.ia u .clz)) false 0 false 0 e)
  | .iaCtz u s e => some (.transport s (.trig (.ia u .ctz)) false 0 false 0 e)
  | .iaPopc u s e => some (.transport s (.trig (.ia u .popc)) false 0 false 0 e)
  | .iaPset u s e => some (.transport s (.trig (.ia u .pset)) false 0 false 0 e)
  | .imMul s e => some (.transport s (.trig (.im .mul)) false 0 false 0 e)
  | .imMulh s e => some (.transport s (.trig (.im .mulh)) false 0 false 0 e)
  | .imMulhu s e => some (.transport s (.trig (.im .mulhu)) false 0 false 0 e)
  | .imDiv s e => some (.transport s (.trig (.im .div)) false 0 false 0 e)
  | .imDivu s e => some (.transport s (.trig (.im .divu)) false 0 false 0 e)
  | .imRem s e => some (.transport s (.trig (.im .rem)) false 0 false 0 e)
  | .imRemu s e => some (.transport s (.trig (.im .remu)) false 0 false 0 e)
  | .lsLd8 p s e => some (.transport s (.trig (.ls .ld8)) false 0 false (modBits false false p) e)
  | .lsLd8u p s e => some (.transport s (.trig (.ls .ld8u)) false 0 false (modBits false false p) e)
  | .lsLd16 p s e => some (.transport s (.trig (.ls .ld16)) false 0 false (modBits false false p) e)
  | .lsLd16u p s e => some (.transport s (.trig (.ls .ld16u)) false 0 false (modBits false false p) e)
  | .lsLd32 p s e => some (.transport s (.trig (.ls .ld32)) false 0 false (modBits false false p) e)
  | .lsLd32u p s e => some (.transport s (.trig (.ls .ld32u)) false 0 false (modBits false false p) e)
  | .lsLd64 p s e => some (.transport s (.trig (.ls .ld64)) false 0 false (modBits false false p) e)
  | .lsLd256 p s e => some (.transport s (.trig (.ls .ld256)) false 0 false (modBits false false p) e)
  | .lsSt8 p s e => some (.transport s (.trig (.ls .st8)) false 0 false (modBits false false p) e)
  | .lsSt16 p s e => some (.transport s (.trig (.ls .st16)) false 0 false (modBits false false p) e)
  | .lsSt32 p s e => some (.transport s (.trig (.ls .st32)) false 0 false (modBits false false p) e)
  | .lsSt64 p s e => some (.transport s (.trig (.ls .st64)) false 0 false (modBits false false p) e)
  | .lsSt256 p z k q s e => some (.transport s (.trig (.ls .st256)) q k z (modBits false false p) e)
  | .lsAadd w p s e => some (.transport s (.trig (.ls .aadd)) false 0 false (modBits false w p) e)
  | .lsAand w p s e => some (.transport s (.trig (.ls .aand)) false 0 false (modBits false w p) e)
  | .lsAor w p s e => some (.transport s (.trig (.ls .aor)) false 0 false (modBits false w p) e)
  | .lsAxor w p s e => some (.transport s (.trig (.ls .axor)) false 0 false (modBits false w p) e)
  | .lsAmin w p s e => some (.transport s (.trig (.ls .amin)) false 0 false (modBits false w p) e)
  | .lsAmax w p s e => some (.transport s (.trig (.ls .amax)) false 0 false (modBits false w p) e)
  | .lsAminu w p s e => some (.transport s (.trig (.ls .aminu)) false 0 false (modBits false w p) e)
  | .lsAmaxu w p s e => some (.transport s (.trig (.ls .amaxu)) false 0 false (modBits false w p) e)
  | .lsAxchg w p s e => some (.transport s (.trig (.ls .axchg)) false 0 false (modBits false w p) e)
  | .lsAcas w p s e => some (.transport s (.trig (.ls .acas)) false 0 false (modBits false w p) e)
  | .lsAfadd p s e => some (.transport s (.trig (.ls .afadd)) false 0 false (modBits false false p) e)
  | .lsAfmin p s e => some (.transport s (.trig (.ls .afmin)) false 0 false (modBits false false p) e)
  | .lsAfmax p s e => some (.transport s (.trig (.ls .afmax)) false 0 false (modBits false false p) e)
  | .vxFadd m z k q s e => some (.transport s (.trig (.vx .fadd)) q k z m e)
  | .vxFsub m z k q s e => some (.transport s (.trig (.vx .fsub)) q k z m e)
  | .vxFmul m z k q s e => some (.transport s (.trig (.vx .fmul)) q k z m e)
  | .vxFma m z k q s e => some (.transport s (.trig (.vx .fma)) q k z m e)
  | .vxFms m z k q s e => some (.transport s (.trig (.vx .fms)) q k z m e)
  | .vxFnma m z k q s e => some (.transport s (.trig (.vx .fnma)) q k z m e)
  | .vxFmin m z k q s e => some (.transport s (.trig (.vx .fmin)) q k z m e)
  | .vxFmax m z k q s e => some (.transport s (.trig (.vx .fmax)) q k z m e)
  | .vxAdd m z k q s e => some (.transport s (.trig (.vx .add)) q k z (m.setWidth 3) e)
  | .vxSub m z k q s e => some (.transport s (.trig (.vx .sub)) q k z (m.setWidth 3) e)
  | .vxAnd z k q s e => some (.transport s (.trig (.vx .and)) q k z 0 e)
  | .vxOr z k q s e => some (.transport s (.trig (.vx .or)) q k z 0 e)
  | .vxXor z k q s e => some (.transport s (.trig (.vx .xor)) q k z 0 e)
  | .vxMax m z k q s e => some (.transport s (.trig (.vx .max)) q k z (m.setWidth 3) e)
  | .vxFabs m z k q s e => some (.transport s (.trig (.vx .fabs)) q k z m e)
  | .vxFneg m z k q s e => some (.transport s (.trig (.vx .fneg)) q k z m e)
  | .vxFdiv m z k q s e => some (.transport s (.trig (.vx .fdiv)) q k z m e)
  | .vxFsqrt m z k q s e => some (.transport s (.trig (.vx .fsqrt)) q k z m e)
  | .vxFceq m z k q s e => some (.transport s (.trig (.vx .fceq)) q k z m e)
  | .vxFclt m z k q s e => some (.transport s (.trig (.vx .fclt)) q k z m e)
  | .vxFcle m z k q s e => some (.transport s (.trig (.vx .fcle)) q k z m e)
  | .vxMul m z k q s e => some (.transport s (.trig (.vx .mul)) q k z (m.setWidth 3) e)
  | .vxMulh m z k q s e => some (.transport s (.trig (.vx .mulh)) q k z (m.setWidth 3) e)
  | .vxAndn z k q s e => some (.transport s (.trig (.vx .andn)) q k z 0 e)
  | .vxShl m z k q s e => some (.transport s (.trig (.vx .shl)) q k z (m.setWidth 3) e)
  | .vxShr m z k q s e => some (.transport s (.trig (.vx .shr)) q k z (m.setWidth 3) e)
  | .vxSra m z k q s e => some (.transport s (.trig (.vx .sra)) q k z (m.setWidth 3) e)
  | .vxMin m z k q s e => some (.transport s (.trig (.vx .min)) q k z (m.setWidth 3) e)
  | .vxMinu m z k q s e => some (.transport s (.trig (.vx .minu)) q k z (m.setWidth 3) e)
  | .vxMaxu m z k q s e => some (.transport s (.trig (.vx .maxu)) q k z (m.setWidth 3) e)
  | .vxAdds m z k q s e => some (.transport s (.trig (.vx .adds)) q k z (m.setWidth 3) e)
  | .vxSubs m z k q s e => some (.transport s (.trig (.vx .subs)) q k z (m.setWidth 3) e)
  | .vxAddsu m z k q s e => some (.transport s (.trig (.vx .addsu)) q k z (m.setWidth 3) e)
  | .vxSubsu m z k q s e => some (.transport s (.trig (.vx .subsu)) q k z (m.setWidth 3) e)
  | .vxCeq m z k q s e => some (.transport s (.trig (.vx .ceq)) q k z (m.setWidth 3) e)
  | .vxClt m z k q s e => some (.transport s (.trig (.vx .clt)) q k z (m.setWidth 3) e)
  | .vxCltu m z k q s e => some (.transport s (.trig (.vx .cltu)) q k z (m.setWidth 3) e)
  | .vpPerm m z k q s e => some (.transport s (.trig (.vp .perm)) q k z m e)
  | .vpBcast m z k q s e => some (.transport s (.trig (.vp .bcast)) q k z m e)
  | .vpSlideup m z k q s e => some (.transport s (.trig (.vp .slideup)) q k z m e)
  | .vpSlidedn m z k q s e => some (.transport s (.trig (.vp .slidedn)) q k z m e)
  | .vpCvt rne nosat z k q s e => some (.transport s (.trig (.vp .cvt)) q k z (modBits rne nosat false) e)
  | .vpRsum m z k q s e => some (.transport s (.trig (.vp .rsum)) q k z m e)
  | .vpRmax m z k q s e => some (.transport s (.trig (.vp .rmax)) q k z m e)
  | .vpRmin m z k q s e => some (.transport s (.trig (.vp .rmin)) q k z m e)
  | .vpMand s e => some (.transport s (.trig (.vp .mand)) false 0 false 0 e)
  | .vpMor s e => some (.transport s (.trig (.vp .mor)) false 0 false 0 e)
  | .vpMxor s e => some (.transport s (.trig (.vp .mxor)) false 0 false 0 e)
  | .vpMnot s e => some (.transport s (.trig (.vp .mnot)) false 0 false 0 e)
  | .vpMpop s e => some (.transport s (.trig (.vp .mpop)) false 0 false 0 e)
  | .vpIota m z k q s e => some (.transport s (.trig (.vp .iota)) q k z m e)
  | .vpRot m z k q s e => some (.transport s (.trig (.vp .rot)) q k z m e)
  | .vpIlv m z k q s e => some (.transport s (.trig (.vp .ilv)) q k z m e)
  | .vpDilv m z k q s e => some (.transport s (.trig (.vp .dilv)) q k z m e)
  | .vpCompress m z k q s e => some (.transport s (.trig (.vp .compress)) q k z m e)
  | .vpExpand m z k q s e => some (.transport s (.trig (.vp .expand)) q k z m e)
  | .vpCvtEf nosat z k q s e => some (.transport s (.trig (.vp .cvtEf)) q k z (modBits false nosat false) e)
  | .vpQblk m s e => some (.transport s (.trig (.vp .qblk)) false 0 false m e)
  | .vpDqblk s e => some (.transport s (.trig (.vp .dqblk)) false 0 false 0 e)
  | .vpRbsum s e => some (.transport s (.trig (.vp .rbsum)) false 0 false 0 e)
  | .vpMfirst s e => some (.transport s (.trig (.vp .mfirst)) false 0 false 0 e)
  | .mxMma s e => some (.transport s (.trig (.mx .mma)) false 0 false 0 e)
  | .mxMmas s e => some (.transport s (.trig (.mx .mmas)) false 0 false 0 e)
  | .mxZero s e => some (.transport s (.trig (.mx .zero)) false 0 false 0 e)
  | .mxRrow s e => some (.transport s (.trig (.mx .rrow)) false 0 false 0 e)
  | .mxRcol s e => some (.transport s (.trig (.mx .rcol)) false 0 false 0 e)
  | .mxWrow s e => some (.transport s (.trig (.mx .wrow)) false 0 false 0 e)
  | .mxWcol s e => some (.transport s (.trig (.mx .wcol)) false 0 false 0 e)
  | .mxLoad s e => some (.transport s (.trig (.mx .load)) false 0 false 0 e)
  | .mxStore s e => some (.transport s (.trig (.mx .store)) false 0 false 0 e)
  | .mxCommit s e => some (.transport s (.trig (.mx .commit)) false 0 false 0 e)
  | .mxWait s e => some (.transport s (.trig (.mx .wait)) false 0 false 0 e)
  | .mxStatus s e => some (.transport s (.trig (.mx .status)) false 0 false 0 e)
  | .xfSend s e => some (.transport s (.trig (.xf .send)) false 0 false 0 e)
  | .xfRecv s e => some (.transport s (.trig (.xf .recv)) false 0 false 0 e)
  | .xfGetn acq s e => some (.transport s (.trig (.xf .getn)) false 0 false (modBits false false acq) e)
  | .xfPutn rel s e => some (.transport s (.trig (.xf .putn)) false 0 false (modBits false rel false) e)
  | .xfGetf acq s e => some (.transport s (.trig (.xf .getf)) false 0 false (modBits false false acq) e)
  | .xfPutf rel s e => some (.transport s (.trig (.xf .putf)) false 0 false (modBits false rel false) e)
  | .xfGathf acq s e => some (.transport s (.trig (.xf .gathf)) false 0 false (modBits false false acq) e)
  | .xfScatf rel s e => some (.transport s (.trig (.xf .scatf)) false 0 false (modBits false rel false) e)
  | .xfAmon rel acq s e => some (.transport s (.trig (.xf .amon)) false 0 false (modBits false rel acq) e)
  | .xfFlush s e => some (.transport s (.trig (.xf .flush)) false 0 false 0 e)
  | .xfCommit s e => some (.transport s (.trig (.xf .commit)) false 0 false 0 e)
  | .xfWait s e => some (.transport s (.trig (.xf .wait)) false 0 false 0 e)
  | .brJmp s e => some (.transport s (.trig (.br .jmp)) false 0 false 0 e)
  | .brJr s e => some (.transport s (.trig (.br .jr)) false 0 false 0 e)
  | .brBz s e => some (.transport s (.trig (.br .bz)) false 0 false 0 e)
  | .brBnz s e => some (.transport s (.trig (.br .bnz)) false 0 false 0 e)
  | .brBltz s e => some (.transport s (.trig (.br .bltz)) false 0 false 0 e)
  | .brBgez s e => some (.transport s (.trig (.br .bgez)) false 0 false 0 e)
  | .brBeq s e => some (.transport s (.trig (.br .beq)) false 0 false 0 e)
  | .brCall s e => some (.transport s (.trig (.br .call)) false 0 false 0 e)
  | .brCallr s e => some (.transport s (.trig (.br .callr)) false 0 false 0 e)
  | .brRet s e => some (.transport s (.trig (.br .ret)) false 0 false 0 e)
  | .brLoop s e => some (.transport s (.trig (.br .loop)) false 0 false 0 e)
  | .sySync s e => some (.transport s (.trig (.sy .sync)) false 0 false 0 e)
  | .syArrive s e => some (.transport s (.trig (.sy .arrive)) false 0 false 0 e)
  | .syWaitrel s e => some (.transport s (.trig (.sy .waitrel)) false 0 false 0 e)
  | .syHalt s e => some (.transport s (.trig (.sy .halt)) false 0 false 0 e)
  | .syTfence s e => some (.transport s (.trig (.sy .tfence)) false 0 false 0 e)
  | .syPhint s e => some (.transport s (.trig (.sy .phint)) false 0 false 0 e)
  | .syCdopen s e => some (.transport s (.trig (.sy .cdopen)) false 0 false 0 e)
  | .syCdclose s e => some (.transport s (.trig (.sy .cdclose)) false 0 false 0 e)
  | .syCtrig s e => some (.transport s (.trig (.sy .ctrig)) false 0 false 0 e)
  | .syChk tok s e => some (.transport s (.trig (.sy .chk)) false 0 false (modBits false false tok) e)
  | .syGuard s e => some (.transport s (.trig (.sy .guard)) false 0 false 0 e)
  | .syWatch s e => some (.transport s (.trig (.sy .watch)) false 0 false 0 e)
  | .syBrk s e => some (.transport s (.trig (.sy .brk)) false 0 false 0 e)
  | .sySysreq s e => some (.transport s (.trig (.sy .sysreq)) false 0 false 0 e)
  | .tgLook s e => some (.transport s (.trig (.tg .look)) false 0 false 0 e)
  | .tgSet s e => some (.transport s (.trig (.tg .set)) false 0 false 0 e)
  | .tgInv s e => some (.transport s (.trig (.tg .inv)) false 0 false 0 e)
  | .tgRead s e => some (.transport s (.trig (.tg .read)) false 0 false 0 e)
  | .crRd s e => some (.transport s (.trig (.cr .rd)) false 0 false 0 e)
  | .crWr s e => some (.transport s (.trig (.cr .wr)) false 0 false 0 e)
  | .bundleIssue _ _ | .idleEnd _ _ | .landing _ _ | .bankSlot _ _ _ | .branchRedirect _ _ | .drawstringRelease _
  | .hold _ | .thaw _ | .debugRequest _ | .acknowledge _ | .preemptArm _ | .preemptForce _
  | .phintMismatch _ _ | .cdStitchMismatch _ _ | .hang _ | .regionRelease _ | .regionEnd _ | .scheduleEnd _
  | .routerFlit _ _ _ _ | .beatLanding _ _ _ | .nearBankAccess _ _ | .farProbe _ _ _ _ | .rebuildDecision _ _ _ _ | .farRead _ _ _ _
  | .farWriteEffect _ _ _ _ | .translationWalk _ _ _ | .xlateRetry _ _ _ | .xlateDecline _ _ _ | .tcinvAll _ | .tcinvVpn _ _
  | .sysreplyWrite _ _ | .hostTrigger _ _ | .planRelease _ _ | .engineWrite _ _ _ | .puzilNop _ _ | .puzilSend _ _ _ _ _ _
  | .puzilRecv _ _ _ _ _ _ | .puzilCopy _ _ _ _ _ _ _ _ _ | .puzilReduce _ _ _ _ _ _ _ _ _ | .puzilRqadd _ _ _ _ _ _ _ _ _ _ _ | .puzilExpmax _ _ _ _ _ _ _ _ | .puzilBinacc _ _ _ _ _ _ _ _
  | .puzilBinout _ _ _ _ _ _ | .puzilDigest _ _ _ _ _ _ | .puzilDcmp _ _ _ _ _ _ | .puzilSignal _ _ _ _ | .puzilWait _ _ | .puzilLoop _ _ _ _ _ _ _
  | .puzilEnd _ _ | .preemptSave _ | .restore _ | .rollback _ | .journalApply _ | .launchRingProduce _ _
  | .launchRecordAccept | .placement | .regionLoad _ | .planSetup _ _ | .planFree _ | .unpick _ _
  | .unpickSweepEnd _ | .purgeComplete _ | .purgeTimeout _ | .preemptCommand _ | .cancel _ | .heartbeat
  | .schedulerTakeover | .tackPacket _ _ | .registerWrite _ _ | .diagnosis _ _ | .neighbourVote _ | .neighbourVoteTimeout
  | .operatorVerdict _ | .correctableError _ _ | .scrubPoison _ _ _ _ | .coreRetire _ _ _ _ | .channelSwap _ _ | .bridgeHalfRemap _ _
  | .columnDarn _ | .remoteDarn _ _ _ | .hDieLoss _ | .hDieDarn _ | .hDieDarnInService _ | .groupRebuild _
  | .packageLoss _ | .controlDieLoss _ | .linkDown _ | .linkTraining _ _ _ _ | .syncPulse _ | .fabricGroupReceive _ _ _
  | .keyInstall _ _ _ | .keySwitch _ _ | .counterExhausted _ _ | .serviceRailOn | .recoveryProvision _ | .serviceRailOff
  | .svnRaise _ | .attestationRequest _ _ | .hostAccess _ _ _ _ _ | .dmaWrite _ _ _ | .easeUp _ | .easeDown _
  | .thermalPreempt _ | .coolantFault | .mDieHalfLost _ _ | .cDieLost _ _ => none

/-! ## Fields (R146 to R155) -/

/-- SRC of R154. -/
def decSrc (x : Nat) : Option Src :=
  if x < 32 then some (.g (Fin.ofNat 32 x))
  else if x < 64 then some (.v (Fin.ofNat 32 (x - 32)))
  else if x < 72 then some (.p (Fin.ofNat 8 (x - 64)))
  else if x < 84 then (UnitId.ofNum (x - 72)).map .r
  else if x = 86 then some (.h .im)
  else if x = 89 then some (.h .vp)
  else if x < 128 then none
  else if x < 256 then some (.imm (BitVec.ofNat 7 (x + 64)))
  else none
def encSrc : Src → Nat
  | .g n => n.val
  | .v n => 32 + n.val
  | .p n => 64 + n.val
  | .r u => 72 + u.num
  | .h .im => 86
  | .h .vp => 89
  | .imm x => 128 + (x.toNat + 64) % 128

/-- DST of R155. -/
def decDst (x : Nat) : Option Dst :=
  let u := x / 128
  let c := x % 128
  if u < 12 then
    if c < 3 then (UnitId.ofNum u).map (fun u => .plain (.port u (Fin.ofNat 3 c)))
    else if c < 8 then none
    else (Op.ofCode u c).map .trig
  else if u = 31 then
    if c < 32 then some (.plain (.g (Fin.ofNat 32 c)))
    else if c < 64 then some (.plain (.v (Fin.ofNat 32 (c - 32))))
    else if c < 72 then some (.plain (.p (Fin.ofNat 8 (c - 64))))
    else none
  else none
def encDst : Dst → Nat
  | .plain (.port u k) => 128 * u.num + k.val
  | .plain (.g n) => 3968 + n.val
  | .plain (.v n) => 4000 + n.val
  | .plain (.p n) => 4032 + n.val
  | .trig o => o.dst

/-- SRC5 of R147. -/
def decSrc5 (x : Nat) : Option ShortSrc :=
  if x < 16 then some (.g (Fin.ofNat 16 x)) else if x < 28 then (UnitId.ofNum (x - 16)).map .r else none
def encSrc5 : ShortSrc → Nat | .g n => n.val | .r u => 16 + u.num

/-- DST8 of R147. -/
def decDst8 (x : Nat) : Option SDst :=
  if x < 32 then some (.plain (.g (Fin.ofNat 32 x)))
  else if x < 48 then some (.plain (.v (Fin.ofNat 16 (x - 32))))
  else if x < 84 then (UnitId.ofNum ((x - 48) / 3)).map (fun u => .plain (.port u (Fin.ofNat 3 ((x - 48) % 3))))
  else if x < 252 then (Op.ofCode ((x - 84) / 14) (8 + (x - 84) % 14)).map .trig
  else none
def encDst8 : SDst → Nat
  | .plain (.g n) => n.val
  | .plain (.v n) => 32 + n.val
  | .plain (.port u k) => 48 + 3 * u.num + k.val
  | .trig o => 84 + 14 * o.unit.num + (o.code - 8)

/-- POS of R152. -/
def decPos : Nat → Option LitPos | 0 => some .signExt | 1 => some .zeroExt | 2 => some .high | _ => none
def encPos : LitPos → Nat | .signExt => 0 | .zeroExt => 1 | .high => 2

/-! ## The decoder -/

/-- The size of a move in parcels, from its first parcel (R144). -/
def moveSize (w : Nat) : Nat := if w % 2 = 0 then 1 else if w / 4 % 4 = 2 then 4 else 2

/-- Cut the parcels of a move (bits from the first parcel up) into fields; none where a field is reserved (R146 to R159). -/
def parseMove (w : Nat) : Option Move :=
  let e := w.testBit 1
  if w % 2 = 0 then
    if w / 4 % 2 = 0 then
      match decSrc5 (bitsOf w 7 3), decDst8 (bitsOf w 15 8) with
      | some s, some d => some (.short s d e)
      | _, _ => none
    else some (.compact (Fin.ofNat 16 (bitsOf w 6 3)) (BitVec.ofNat 5 (bitsOf w 11 7)) (BitVec.ofNat 4 (bitsOf w 15 12)) e)
  else match w / 4 % 4 with
  | 0 =>
    match decSrc (bitsOf w 11 4), decDst (bitsOf w 23 12) with
    | some s, some d =>
      some (.transport s d (w.testBit 24) (BitVec.ofNat 3 (bitsOf w 27 25)) (w.testBit 28) (BitVec.ofNat 3 (bitsOf w 31 29)) e)
    | _, _ => none
  | 1 =>
    match decDst (bitsOf w 23 12) with
    | some d => some (.imm d (BitVec.ofNat 16 (bitsOf w 31 24 * 256 + bitsOf w 11 4)) e)
    | none => none
  | 2 =>
    match decDst (bitsOf w 23 12), decPos (bitsOf w 25 24) with
    | some d, some p =>
      if bitsOf w 31 26 = 0 && bitsOf w 11 4 = 0 then some (.long d p (BitVec.ofNat 32 (bitsOf w 63 32)) e) else none
    | _, _ => none
  | _ =>
    match bitsOf w 7 4 with
    | 0 => some (.idle (BitVec.ofNat 24 (bitsOf w 31 8)) e)
    | 1 => if bitsOf w 31 8 = 0 then some (.nop e) else none
    | _ => none

/-- Decode the parcels of one move; none is an illegal encoding (R159). -/
noncomputable def decodeMove (w : Nat) : Option Instr :=
  match parseMove w with
  | some m => if m.legal then Instr.ofMove m else none
  | none => none

/-- Decode one Puzil op word (R278 to R280); none where set-up refuses the word itself (R281, encoding). -/
def decodePuzil (w : Nat) : Option Instr :=
  let step := BitVec.ofNat 8 (bitsOf w 123 116)
  let ofs := BitVec.ofNat 24 (bitsOf w 115 92)
  let a := BitVec.ofNat 22 (bitsOf w 91 70)
  let b := BitVec.ofNat 22 (bitsOf w 69 48)
  let d := BitVec.ofNat 22 (bitsOf w 47 26)
  let len := BitVec.ofNat 8 (bitsOf w 25 18)
  let adv := BitVec.ofNat 3 (bitsOf w 17 15)
  let x := bitsOf w 14 0
  let i : Option Instr :=
    match bitsOf w 127 124 with
    | 0 => if bitsOf w 91 0 = 0 then some (.puzilNop step ofs) else none
    | 1 => if b = 0 && d = 0 && x % 2048 = 0 then some (.puzilSend step ofs a len adv (BitVec.ofNat 4 (x / 2048))) else none
    | 2 => if a = 0 && b = 0 && x % 2048 = 0 then some (.puzilRecv step ofs d len adv (BitVec.ofNat 4 (x / 2048))) else none
    | 3 => if b = 0 && x % 64 = 0 then
        some (.puzilCopy step ofs a d len adv (BitVec.ofNat 4 (x / 2048)) (BitVec.ofNat 4 (x / 128)) (x.testBit 6)) else none
    | 4 => if x % 512 = 0 then some (.puzilReduce step ofs a b d len adv (BitVec.ofNat 4 (x / 2048)) (BitVec.ofNat 2 (x / 512))) else none
    | 5 => some (.puzilRqadd step ofs a b d len adv (BitVec.ofNat 2 (x / 8192)) (BitVec.ofNat 3 (x / 1024)) (x.testBit 9) (BitVec.ofNat 9 x))
    | 6 => if x % 16384 = 0 then some (.puzilExpmax step ofs a b d len adv (x.testBit 14)) else none
    | 7 => if x % 16384 = 0 then some (.puzilBinacc step ofs a b d len adv (x.testBit 14)) else none
    | 8 => if b = 0 && x = 0 then some (.puzilBinout step ofs a d len adv) else none
    | 9 => if b = 0 && x = 0 then some (.puzilDigest step ofs a d len adv) else none
    | 10 => if d = 0 && len = 0 && x % 128 = 0 then some (.puzilDcmp step ofs a b adv (BitVec.ofNat 8 (x / 128))) else none
    | 11 => if bitsOf w 91 15 = 0 && x % 32 = 0 then some (.puzilSignal step ofs (BitVec.ofNat 4 (x / 2048)) (BitVec.ofNat 6 (x / 32))) else none
    | 12 => if bitsOf w 91 0 = 0 then some (.puzilWait step ofs) else none
    | 13 => some (.puzilLoop step ofs (BitVec.ofNat 8 (bitsOf w 91 84)) (BitVec.ofNat 16 (bitsOf w 83 68)) (BitVec.ofNat 24 (bitsOf w 67 44))
        (BitVec.ofNat 22 (bitsOf w 43 22)) (BitVec.ofNat 22 (bitsOf w 21 0)))
    | 14 => if bitsOf w 91 0 = 0 then some (.puzilEnd step ofs) else none
    | _ => none
  match i with
  | some i => if i.wf then some i else none
  | none => none

/-- The number of the first `n` little-endian bytes of a list. -/
def bytesLE : Nat → List Byte → Nat
  | 0, _ => 0
  | _, [] => 0
  | n + 1, b :: bs => b.toNat + 256 * bytesLE n bs

/-- Decode the move at the head of a list of bytes, and the bytes after it; a missing byte counts as zero. -/
noncomputable def decode (l : List Byte) : Option (Instr × List Byte) :=
  let w := bytesLE 8 l
  (decodeMove w).map (fun i => (i, l.drop (2 * moveSize w)))

/-- The bytes of a `nbits`-bit word stored in order of address. -/
def wordBytes (n w : Nat) : List Byte := (List.range n).map (fun i => BitVec.ofNat 8 (w / 256 ^ i))

/-- The instruction that the decoder reads from the bits of a row of spec/opcode_table.json: a 128-bit word is a Puzil op word, any other the
parcels of a move, stored with bits [15:0] at the lowest address (R143). -/
noncomputable def decodeTableWord (nbits w : Nat) : Option Instr :=
  if nbits = 128 then decodePuzil (bytesLE 16 (wordBytes 16 w)) else (decode (wordBytes 8 w)).map Prod.fst

/-! ## The encoder -/

/-- A one-bit field. -/
def bit (b : Bool) (n : Nat) : Nat := if b then 2 ^ n else 0

/-- The parcels of a move as one number (R146 to R153). -/
def encodeMove : Move → Nat
  | .short s d e => bit e 1 + encSrc5 s * 2 ^ 3 + encDst8 d * 2 ^ 8
  | .compact o vd vs e => bit e 1 + 2 ^ 2 + o.val * 2 ^ 3 + vd.toNat * 2 ^ 7 + vs.toNat * 2 ^ 12
  | .transport s d q k z m e =>
    1 + bit e 1 + encSrc s * 2 ^ 4 + encDst d * 2 ^ 12 + bit q 24 + k.toNat * 2 ^ 25 + bit z 28 + m.toNat * 2 ^ 29
  | .imm d x e => 1 + bit e 1 + 2 ^ 2 + x.toNat % 256 * 2 ^ 4 + encDst d * 2 ^ 12 + x.toNat / 256 * 2 ^ 24
  | .long d p l e => 1 + bit e 1 + 2 ^ 3 + encDst d * 2 ^ 12 + encPos p * 2 ^ 24 + l.toNat * 2 ^ 32
  | .idle n e => 1 + bit e 1 + 2 ^ 2 + 2 ^ 3 + n.toNat * 2 ^ 8
  | .nop e => 1 + bit e 1 + 2 ^ 2 + 2 ^ 3 + 2 ^ 4

/-- The data format of R278. -/
def pzWord (opc : Nat) (step : BitVec 8) (ofs : BitVec 24) (a b d : BitVec 22) (len : BitVec 8) (adv : BitVec 3) (x : Nat) : Nat :=
  opc * 2 ^ 124 + step.toNat * 2 ^ 116 + ofs.toNat * 2 ^ 92 + a.toNat * 2 ^ 70 + b.toNat * 2 ^ 48 + d.toNat * 2 ^ 26 + len.toNat * 2 ^ 18 +
    adv.toNat * 2 ^ 15 + x

/-- The op word of a Puzil op (R278 to R280). -/
def encodePuzil : Instr → Option Nat
  | .puzilNop st o => some (pzWord 0 st o 0 0 0 0 0 0)
  | .puzilSend st o a len adv l => some (pzWord 1 st o a 0 0 len adv (l.toNat * 2048))
  | .puzilRecv st o d len adv l => some (pzWord 2 st o 0 0 d len adv (l.toNat * 2048))
  | .puzilCopy st o a d len adv s f sat => some (pzWord 3 st o a 0 d len adv (s.toNat * 2048 + f.toNat * 128 + bit sat 6))
  | .puzilReduce st o a b d len adv f r => some (pzWord 4 st o a b d len adv (f.toNat * 2048 + r.toNat * 512))
  | .puzilRqadd st o a b d len adv qf ty sat nb => some (pzWord 5 st o a b d len adv (qf.toNat * 8192 + ty.toNat * 1024 + bit sat 9 + nb.toNat))
  | .puzilExpmax st o a b d len adv s => some (pzWord 6 st o a b d len adv (bit s 14))
  | .puzilBinacc st o a b d len adv s => some (pzWord 7 st o a b d len adv (bit s 14))
  | .puzilBinout st o a d len adv => some (pzWord 8 st o a 0 d len adv 0)
  | .puzilDigest st o a d len adv => some (pzWord 9 st o a 0 d len adv 0)
  | .puzilDcmp st o a b adv p => some (pzWord 10 st o a b 0 0 adv (p.toNat * 128))
  | .puzilSignal st o l t => some (pzWord 11 st o 0 0 0 0 0 (l.toNat * 2048 + t.toNat * 32))
  | .puzilWait st o => some (pzWord 12 st o 0 0 0 0 0 0)
  | .puzilLoop st o body n os as aw =>
    some (13 * 2 ^ 124 + st.toNat * 2 ^ 116 + o.toNat * 2 ^ 92 + body.toNat * 2 ^ 84 + n.toNat * 2 ^ 68 + os.toNat * 2 ^ 44 + as.toNat * 2 ^ 22 + aw.toNat)
  | .puzilEnd st o => some (pzWord 14 st o 0 0 0 0 0 0)
  | _ => none

/-- The word of an instruction and its size in bits; none for an event, which has no encoding. -/
def encode (i : Instr) : Option (Nat × Nat) :=
  match i.toMove with
  | some m => let w := encodeMove m; some (16 * moveSize w, w)
  | none => (encodePuzil i).map (fun w => (128, w))

end Sys2Proof
end

