-- ==== Sys2Proof/Machine/Num.lean ====
section
/-! DEFINITION. Number formats, exact values, rounding and conversions (spec/04_numbers.md R92 to R101, R110 to R112). A finite
value is held exactly as `m * 2^e` with a sign; results are bit patterns together with the VSTAT flags they raise (R78, R99). -/
namespace Sys2Proof.Machine

/-- VSTAT flags in the layout of spec/03_core.md R78. -/
abbrev Flags := BitVec 7
def fNX : Flags := 1
def fUF : Flags := 2
def fOF : Flags := 4
def fDZ : Flags := 8
def fNV : Flags := 16
def fDZI : Flags := 32
def fIOV : Flags := 64

/-- The floating-point formats of R92. -/
inductive FFmt where
  | fp32 | fp16 | bf16 | e4m3 | e5m2
deriving DecidableEq, Repr

/-- The integer formats of R94. -/
inductive IFmt where
  | i8 | u8 | i32 | i64
deriving DecidableEq, Repr

/-- A format that a conversion or descriptor may name: FMT codes 0x0 to 0x9 (spec/03_core.md R84). -/
inductive Fmt where
  | f (x : FFmt) | i (x : IFmt) | b4
deriving DecidableEq, Repr

/-- The rounding modes of R96, in the order of RMODE.RM. -/
inductive RMode where
  | rne | rtz | rup | rdn
deriving DecidableEq, Repr

/-- The mode of RMODE.RM (R96). -/
def RMode.ofBits (b : Nat) : RMode := match b % 4 with | 0 => .rne | 1 => .rtz | 2 => .rup | _ => .rdn

/-- FMT codes of R84; codes 0xA to 0xF are reserved. -/
def Fmt.ofCode (c : Nat) : Option Fmt :=
  match c with
  | 0 => some (.f .fp32) | 1 => some (.f .fp16) | 2 => some (.f .bf16) | 3 => some (.f .e4m3) | 4 => some (.f .e5m2)
  | 5 => some (.i .i8) | 6 => some (.i .u8) | 7 => some (.i .i32) | 8 => some (.i .i64) | 9 => some .b4
  | _ => none

def FFmt.width : FFmt → Nat | .fp32 => 32 | .fp16 => 16 | .bf16 => 16 | .e4m3 => 8 | .e5m2 => 8
def FFmt.fbits : FFmt → Nat | .fp32 => 23 | .fp16 => 10 | .bf16 => 7 | .e4m3 => 3 | .e5m2 => 2
def FFmt.ebits : FFmt → Nat | .fp32 => 8 | .fp16 => 5 | .bf16 => 8 | .e4m3 => 4 | .e5m2 => 5
def FFmt.bias : FFmt → Nat | .fp32 => 127 | .fp16 => 15 | .bf16 => 127 | .e4m3 => 7 | .e5m2 => 15
def IFmt.width : IFmt → Nat | .i8 => 8 | .u8 => 8 | .i32 => 32 | .i64 => 64
def IFmt.signed : IFmt → Bool | .u8 => false | _ => true
/-- Element width in bits (R205); B4 elements have 4 bits (R102). -/
def Fmt.width : Fmt → Nat | .f x => x.width | .i x => x.width | .b4 => 4

/-- The pattern of the largest finite magnitude (R92). -/
def FFmt.maxPat (F : FFmt) : Nat :=
  match F with | .e4m3 => 0x7e | F => (2 ^ F.ebits - 1) * 2 ^ F.fbits - 1
/-- The pattern of +infinity (R92); E4M3 has none, its field is the NaN. -/
def FFmt.infPat (F : FFmt) : Nat :=
  match F with | .e4m3 => 0x7f | F => (2 ^ F.ebits - 1) * 2 ^ F.fbits
/-- The canonical quiet NaN of a format (R93). -/
def FFmt.nanPat : FFmt → Nat | .fp32 => 0x7fc00000 | .fp16 => 0x7e00 | .bf16 => 0x7fc0 | .e4m3 => 0x7f | .e5m2 => 0x7e
/-- The sign bit of a pattern. -/
def FFmt.signPat (F : FFmt) (neg : Bool) : Nat := if neg then 2 ^ (F.width - 1) else 0

/-- An unpacked floating-point value; a finite value is `(-1)^neg * m * 2^e`. -/
inductive FV where
  | nan (signalling : Bool)
  | inf (neg : Bool)
  | fin (neg : Bool) (m : Nat) (e : Int)
deriving DecidableEq, Repr

/-- Unpack a bit pattern (R92, R93). -/
def FFmt.unpack (F : FFmt) (x : Nat) : FV :=
  let neg := x.testBit (F.width - 1)
  let ex := bitsOf x (F.width - 2) F.fbits
  let fr := x % 2 ^ F.fbits
  if F = .e4m3 && ex == 15 && fr == 7 then .nan false
  else if F ≠ .e4m3 && ex == 2 ^ F.ebits - 1 then
    if fr == 0 then .inf neg else .nan (!fr.testBit (F.fbits - 1))
  else if ex == 0 then .fin neg fr (1 - (F.bias : Int) - F.fbits)
  else .fin neg (2 ^ F.fbits + fr) ((ex : Int) - F.bias - F.fbits)

/-- A rounded result: the bit pattern and the flags it raises. -/
structure FR where
  val : Nat
  fl  : Flags
deriving DecidableEq, Repr

/-- Does mode `m` take the candidate of larger magnitude, for a discarded part compared with one half (R96)? -/
def roundsUp (m : RMode) (neg odd : Bool) (rem half : Nat) : Bool :=
  match m with
  | .rne => half < rem || (rem == half && odd)
  | .rtz => false
  | .rup => rem != 0 && !neg
  | .rdn => rem != 0 && neg

/-- `m * 2^e` rounded to a multiple of `2^q`: the multiple, and whether it is inexact. -/
def roundTo (mode : RMode) (neg : Bool) (m : Nat) (e q : Int) : Nat × Bool :=
  if q ≤ e then (m <<< (e - q).toNat, false)
  else
    let sh := (q - e).toNat
    let n := m >>> sh
    let rem := m % 2 ^ sh
    (if roundsUp mode neg (n % 2 == 1) rem (2 ^ (sh - 1)) then n + 1 else n, rem != 0)

/-- Does overflow under mode `m` deliver the infinity (R97)? Otherwise it delivers the largest finite value. -/
def overflowsToInf (m : RMode) (neg : Bool) : Bool :=
  match m with | .rne => true | .rtz => false | .rup => !neg | .rdn => neg

/-- `rnd` of R97 for a non-zero exact value `(-1)^neg * m * 2^e`, with the flags of R99. E4M3 follows the rows of R101: `sat` gives
the saturating rule. -/
def rndMag (F : FFmt) (mode : RMode) (sat : Bool) (neg : Bool) (m : Nat) (e : Int) : FR :=
  let E : Int := e + Nat.log2 m
  let q := max (E - F.fbits) (1 - (F.bias : Int) - F.fbits)
  let (n, inexact) := roundTo mode neg m e q
  let pat := ((q + F.fbits + F.bias).toNat <<< F.fbits) + n - 2 ^ F.fbits
  let s := F.signPat neg
  if F.maxPat < pat then
    let big := if (F = .e4m3 && sat) || !overflowsToInf mode neg then s + F.maxPat
      else if F = .e4m3 then F.nanPat else s + F.infPat
    ⟨big, fOF ||| fNX⟩
  else
    let fl := if inexact then (if pat < 2 ^ F.fbits then fUF ||| fNX else fNX) else 0
    ⟨s + pat, fl⟩

/-- `rnd` of R97; a zero keeps its sign. -/
def rndFin (F : FFmt) (mode : RMode) (sat : Bool) (neg : Bool) (m : Nat) (e : Int) : FR :=
  if m = 0 then ⟨F.signPat neg, 0⟩ else rndMag F mode sat neg m e

/-- An exact value as a signed integer multiple of `2^e`. -/
def signedMul (neg : Bool) (m : Nat) : Int := if neg then -(m : Int) else m
/-- The integer numerator of `(-1)^neg * m * 2^e` over `2^b`, for `b ≤ e`. -/
def numOver (neg : Bool) (m : Nat) (e b : Int) : Int := signedMul neg (m <<< (e - b).toNat)

/-- Round an exact signed sum `n * 2^e`; `zneg` is the sign of an exact zero. -/
def rndInt (F : FFmt) (mode : RMode) (n e : Int) (zneg : Bool) : FR :=
  if n = 0 then ⟨F.signPat zneg, 0⟩ else rndMag F mode true (n < 0) n.natAbs e

/-- NV for any signalling NaN among the inputs (R98 item 4). -/
def FV.sig : FV → Flags | .nan true => fNV | _ => 0
def FV.isNan : FV → Bool | .nan _ => true | _ => false
def FV.negated : FV → FV | .nan s => .nan s | .inf n => .inf !n | .fin n m e => .fin (!n) m e

/-- The sign of an exact zero sum of operands with signs `a` and `b` (R97, R98). -/
def zeroSign (mode : RMode) (a b : Bool) : Bool := if a = b then a else mode == .rdn

/-- Addition with one rounding (R98, R200). -/
def fAdd (F : FFmt) (mode : RMode) (a b : FV) : FR :=
  match a, b with
  | .nan _, _ => ⟨F.nanPat, a.sig ||| b.sig⟩
  | _, .nan _ => ⟨F.nanPat, a.sig ||| b.sig⟩
  | .inf x, .inf y => if x = y then ⟨F.signPat x + F.infPat, 0⟩ else ⟨F.nanPat, fNV⟩
  | .inf x, .fin .. => ⟨F.signPat x + F.infPat, 0⟩
  | .fin .., .inf y => ⟨F.signPat y + F.infPat, 0⟩
  | .fin x m e, .fin y n f =>
    let g := min e f
    rndInt F mode (numOver x m e g + numOver y n f g) g (zeroSign mode x y)

/-- The exact product of two values, or the invalid product of an infinity and a zero. -/
def fProd (a b : FV) : FV × Flags :=
  match a, b with
  | .nan _, _ => (.nan false, a.sig ||| b.sig)
  | _, .nan _ => (.nan false, a.sig ||| b.sig)
  | .inf x, .inf y => (.inf (x != y), 0)
  | .inf x, .fin y m _ => if m = 0 then (.nan false, fNV) else (.inf (x != y), 0)
  | .fin x m _, .inf y => if m = 0 then (.nan false, fNV) else (.inf (x != y), 0)
  | .fin x m e, .fin y n f => (.fin (x != y) (m * n) (e + f), 0)

/-- Round one unpacked value to `F` (R97). -/
def fRound (F : FFmt) (mode : RMode) (a : FV) : FR :=
  match a with
  | .nan s => ⟨F.nanPat, (FV.nan s).sig⟩
  | .inf x => ⟨F.signPat x + F.infPat, 0⟩
  | .fin x m e => rndFin F mode true x m e

/-- Multiplication with one rounding (R98, R200). -/
def fMul (F : FFmt) (mode : RMode) (a b : FV) : FR :=
  let (p, fl) := fProd a b
  let r := fRound F mode p
  ⟨r.val, r.fl ||| fl⟩

/-- Fused multiply-add `a*b + c` with one rounding; an infinity times a zero sets NV even beside a quiet NaN addend (R98 item 3). -/
def fFma (F : FFmt) (mode : RMode) (a b c : FV) : FR :=
  let (p, fl) := fProd a b
  let r := fAdd F mode p c
  ⟨r.val, r.fl ||| fl ||| c.sig⟩

/-- Division with one rounding (R98, R200). The quotient is taken with 80 extra bits and a sticky bit, which fixes every rounding. -/
def fDiv (F : FFmt) (mode : RMode) (a b : FV) : FR :=
  match a, b with
  | .nan _, _ => ⟨F.nanPat, a.sig ||| b.sig⟩
  | _, .nan _ => ⟨F.nanPat, a.sig ||| b.sig⟩
  | .inf _, .inf _ => ⟨F.nanPat, fNV⟩
  | .inf x, .fin y _ _ => ⟨F.signPat (x != y) + F.infPat, 0⟩
  | .fin x _ _, .inf y => ⟨F.signPat (x != y), 0⟩
  | .fin x m e, .fin y n f =>
    if n = 0 then
      if m = 0 then ⟨F.nanPat, fNV⟩ else ⟨F.signPat (x != y) + F.infPat, fDZ⟩
    else if m = 0 then ⟨F.signPat (x != y), 0⟩
    else
      let num := m <<< 80
      let q := num / n
      rndMag F mode true (x != y) (2 * q + (if num % n = 0 then 0 else 1)) (e - f - 81)

/-- The integer square root of `n`, bit by bit from bit `k - 1` down, starting from `r`. -/
def isqrt (n : Nat) : Nat → Nat → Nat
  | 0, r => r
  | k + 1, r => isqrt n k (if (r + 2 ^ k) * (r + 2 ^ k) ≤ n then r + 2 ^ k else r)

/-- Square root with one rounding (R98, R200). -/
def fSqrt (F : FFmt) (mode : RMode) (a : FV) : FR :=
  match a with
  | .nan s => ⟨F.nanPat, (FV.nan s).sig⟩
  | .inf x => if x then ⟨F.nanPat, fNV⟩ else ⟨F.infPat, 0⟩
  | .fin x m e =>
    if m = 0 then ⟨F.signPat x, 0⟩
    else if x then ⟨F.nanPat, fNV⟩
    else
      let odd := e % 2 = 1
      let n := (if odd then 2 * m else m) <<< 60
      let e' := (if odd then e - 1 else e) - 60
      let r := isqrt n 48 0
      rndMag F mode true false (2 * r + (if r * r = n then 0 else 1)) (e' / 2 - 1)

/-- The order of two values that are not NaN, with -0 below +0 (R98 item 2). -/
def fBelow (a b : FV) : Bool :=
  match a, b with
  | .nan _, _ => false
  | _, .nan _ => false
  | .inf x, .inf y => x && !y
  | .inf x, .fin .. => x
  | .fin .., .inf y => !y
  | .fin x m e, .fin y n f =>
    if m = 0 && n = 0 then x && !y
    else let g := min e f; decide (numOver x m e g < numOver y n f g)

/-- Minimum (`max = false`) or maximum of two patterns (R98 item 2, R200). -/
def fMinMax (F : FFmt) (max : Bool) (x y : Nat) : FR :=
  let a := F.unpack x
  let b := F.unpack y
  let fl := a.sig ||| b.sig
  if a.isNan then (if b.isNan then ⟨F.nanPat, fl⟩ else ⟨y, fl⟩)
  else if b.isNan then ⟨x, fl⟩
  else if fBelow a b = max then ⟨y, fl⟩ else ⟨x, fl⟩

/-- Numeric equality, with -0 equal to +0 and NaN equal to nothing (R202). -/
def fEq (a b : FV) : Bool :=
  match a, b with
  | .inf x, .inf y => x == y
  | .fin x m e, .fin y n f => let g := min e f; numOver x m e g == numOver y n f g
  | _, _ => false

/-- Numeric order, with -0 equal to +0 and NaN unordered (R202). -/
def fLt (a b : FV) : Bool := fBelow a b && !fEq a b

/-- Sign manipulation: fabs, fneg (R199): a NaN becomes canonical. -/
def fSignOp (F : FFmt) (neg : Bool → Bool) (x : Nat) : FR :=
  match F.unpack x with
  | .nan s => ⟨F.nanPat, (FV.nan s).sig⟩
  | _ => ⟨F.signPat (neg (x.testBit (F.width - 1))) + x % 2 ^ (F.width - 1), 0⟩

/-! ## Integers -/

/-- The two's complement value of the low `w` bits. -/
def sval (w x : Nat) : Int := if x % 2 ^ w < 2 ^ (w - 1) then (x % 2 ^ w : Nat) else (x % 2 ^ w : Nat) - (2 ^ w : Nat)
/-- The low `w` bits of an integer. -/
def wrapTo (w : Nat) (x : Int) : Nat := (x % (2 ^ w : Nat)).toNat
def IFmt.lo (f : IFmt) : Int := if f.signed then -(2 ^ (f.width - 1) : Nat) else 0
def IFmt.hi (f : IFmt) : Int := if f.signed then (2 ^ (f.width - 1) : Nat) - 1 else (2 ^ f.width : Nat) - 1
/-- The integer that a pattern holds in its format (R94). -/
def IFmt.value (f : IFmt) (x : Nat) : Int := if f.signed then sval f.width x else (x % 2 ^ f.width : Nat)

/-- Clamp to a range, with IOV on a clamp (R99). -/
def clampTo (lo hi x : Int) : Int × Flags := if x < lo then (lo, fIOV) else if hi < x then (hi, fIOV) else (x, 0)

/-- Division of R95: quotient, remainder and DZI, in width `w`. -/
def divRem (signed : Bool) (w a b : Nat) : Nat × Nat × Flags :=
  if b % 2 ^ w = 0 then (2 ^ w - 1, a % 2 ^ w, fDZI)
  else if signed then
    let x := sval w a
    let y := sval w b
    (wrapTo w (Int.tdiv x y), wrapTo w (Int.tmod x y), 0)
  else (a % 2 ^ w / (b % 2 ^ w), a % 2 ^ w % (b % 2 ^ w), 0)

/-! ## Conversions (R101) -/

/-- Float to float. -/
def cvtFF (S D : FFmt) (m : RMode) (sat : Bool) (x : Nat) : FR :=
  match S.unpack x with
  | .nan s => ⟨D.nanPat, (FV.nan s).sig⟩
  | .inf n =>
    if D = .e4m3 then (if sat then ⟨D.signPat n + D.maxPat, fOF ||| fNX⟩ else ⟨D.nanPat, fNV⟩)
    else ⟨D.signPat n + D.infPat, 0⟩
  | .fin n k e => rndFin D m sat n k e

/-- Float to integer: rounded, then saturated. -/
def cvtFI (S : FFmt) (D : IFmt) (m : RMode) (x : Nat) : FR :=
  match S.unpack x with
  | .nan s => ⟨0, fIOV ||| (FV.nan s).sig⟩
  | .inf n => ⟨wrapTo D.width (if n then D.lo else D.hi), fIOV⟩
  | .fin n k e =>
    let (r, inexact) := roundTo m n k e 0
    let (v, fl) := clampTo D.lo D.hi (signedMul n r)
    ⟨wrapTo D.width v, if fl = 0 then (if inexact then fNX else 0) else fl⟩

/-- Integer to float. -/
def cvtIF (S : IFmt) (D : FFmt) (m : RMode) (sat : Bool) (x : Nat) : FR :=
  let v := S.value x
  rndFin D m sat (v < 0) v.natAbs 0

/-- Integer to integer. -/
def cvtII (S D : IFmt) (sat : Bool) (x : Nat) : FR :=
  if sat then
    let (v, fl) := clampTo D.lo D.hi (S.value x)
    ⟨wrapTo D.width v, fl⟩
  else ⟨wrapTo D.width (S.value x), 0⟩

/-- `cvt(x, S, D, m, sat)` of R101; B4 is converted by qblk and dqblk only (R205). -/
def cvt (x : Nat) (S D : Fmt) (m : RMode) (sat : Bool) : FR :=
  match S, D with
  | .f s, .f d => cvtFF s d m sat x
  | .f s, .i d => cvtFI s d m x
  | .i s, .f d => cvtIF s d m sat x
  | .i s, .i d => cvtII s d sat x
  | .b4, _ => ⟨0, 0⟩
  | _, .b4 => ⟨0, 0⟩

/-! ## Reductions -/

/-- One level of the pairwise tree of R110. -/
def pairLevel (node : Nat → Nat → FR) : List Nat → List Nat × Flags
  | a :: b :: rest =>
    let r := node a b
    let (l, fl) := pairLevel node rest
    (r.val :: l, r.fl ||| fl)
  | [a] => ([a], 0)
  | [] => ([], 0)

/-- The pairwise tree of R110 over a list of 2^k values, `k` levels. -/
def pairTree (node : Nat → Nat → FR) : Nat → List Nat → List Nat × Flags
  | 0, l => (l, 0)
  | k + 1, l =>
    let (l1, f1) := pairLevel node l
    let (l2, f2) := pairTree node k l1
    (l2, f1 ||| f2)

/-- The canonical tree of R111, with fuel for its depth. -/
def canonTree (node : Nat → Nat → FR) : Nat → List Nat → FR
  | 0, l => ⟨l.headD 0, 0⟩
  | k + 1, l =>
    if l.length ≤ 1 then ⟨l.headD 0, 0⟩
    else
      let p := 2 ^ Nat.log2 (l.length - 1)
      let a := canonTree node k (l.take p)
      let b := canonTree node k (l.drop p)
      let r := node a.val b.val
      ⟨r.val, r.fl ||| a.fl ||| b.fl⟩

/-- `canon(list)` of R111. -/
def canon (node : Nat → Nat → FR) (l : List Nat) : FR := canonTree node l.length l

/-- An exact sum of values in progress: the finite part as `n * 2^e`, whether an infinity of each sign or a NaN or an invalid
product has entered, and whether every term so far is -0. -/
structure ExSum where
  n    : Int
  e    : Int
  pinf : Bool
  ninf : Bool
  nan  : Bool
  negz : Bool
deriving DecidableEq, Repr

def ExSum.zero : ExSum := ⟨0, 0, false, false, false, true⟩

/-- Add one exact term. -/
def ExSum.add (s : ExSum) (x : FV) : ExSum :=
  match x with
  | .nan _ => { s with nan := true }
  | .inf n => if n then { s with ninf := true } else { s with pinf := true }
  | .fin n m e =>
    let g := min s.e e
    { s with n := s.n * 2 ^ (s.e - g).toNat + numOver n m e g, e := g, negz := s.negz && n && m == 0 }

/-- Round an exact sum once to FP32 by RNE (R112, R228). -/
def ExSum.round (s : ExSum) : FR :=
  if s.nan || (s.pinf && s.ninf) then ⟨FFmt.fp32.nanPat, fNV⟩
  else if s.pinf then ⟨FFmt.fp32.infPat, 0⟩
  else if s.ninf then ⟨FFmt.fp32.signPat true + FFmt.fp32.infPat, 0⟩
  else rndInt .fp32 .rne s.n s.e s.negz

end Sys2Proof.Machine
end

