-- ==== Sys2Proof/Machine/Block.lean ====
section
/-! DEFINITION. The B4 block format, error-feedback rounding, XS128 exact sums and finite-field arithmetic (spec/04_numbers.md R102 to
R109, R114). -/
namespace Sys2Proof.Machine

/-! ## B4 (R102 to R105) -/

/-- Magnitude of R103 in eighths, for bits [2:0] of a code of types 1 to 3. -/
def b4Mag (type c : Nat) : Nat :=
  match type, c % 8 with
  | 1, 0 => 0 | 1, 1 => 4 | 1, 2 => 8 | 1, 3 => 12 | 1, 4 => 16 | 1, 5 => 24 | 1, 6 => 32 | 1, 7 => 48
  | 2, 0 => 0 | 2, 1 => 1 | 2, 2 => 2 | 2, 3 => 4 | 2, 4 => 8 | 2, 5 => 16 | 2, 6 => 32 | 2, 7 => 64
  | _, 0 => 0 | _, 1 => 8 | _, 2 => 16 | _, 3 => 24 | _, 4 => 32 | _, 5 => 48 | _, 6 => 64 | _, _ => 96

/-- `b4_decode(c, T)` of R103, as sign and magnitude in eighths. -/
def b4Code (type c : Nat) : Bool × Nat :=
  if type = 0 then (if c % 16 < 8 then (false, 8 * (c % 16)) else (true, 8 * (16 - c % 16)))
  else (8 ≤ c % 16, b4Mag type c)

/-- The exact value of an element with code `c` in a block with scale byte `sc` (R103). -/
def b4Value (sc c : Nat) : FV :=
  if sc % 64 = 63 then .nan false
  else let (n, m) := b4Code (sc / 64 % 4) c; .fin n m ((sc % 64 : Nat) - 35)

/-- Tmax of R103, in eighths. -/
def b4Max (type : Nat) : Nat := match type with | 0 => 56 | 1 => 48 | 2 => 64 | _ => 96

/-- A quantised block: scale byte, 32 codes, flags, and the exact error of R105 in units of 2^-298. -/
structure QBlk where
  scale : Nat
  codes : List Nat
  fl    : Flags
  err   : Nat
deriving DecidableEq, Repr

/-- The magnitude of a finite FP32 value in units of 2^-149. -/
def mag149 : FV → Nat | .fin _ m e => m <<< (e + 149).toNat | _ => 0

/-- The code nearest to a value (step 4 of R104): the first nearest of `cands` in units of 2^-149 times 8, preferring a code with bit 0 clear. -/
def nearestCode (x : Int) (val : Nat → Int) : List Nat → Nat → Nat
  | [], best => best
  | c :: rest, best =>
    let d := (x - val c).natAbs
    let b := (x - val best).natAbs
    nearestCode x val rest (if d < b || (d = b && c % 2 = 0 && best % 2 = 1) then c else best)

/-- The decoded value of a code in units of 2^-152 (an eighth of 2^-149) for scale exponent `e` (R103). -/
def b4Units (type e c : Nat) : Int := let (n, m) := b4Code type c; signedMul n (m <<< (e + 117))

/-- Step 4 of R104 for one element. -/
def qElem (type e : Nat) (v : FV) : Nat :=
  match v with
  | .fin n m k =>
    let x := signedMul n (m <<< (k + 152).toNat)
    if type = 0 then nearestCode x (b4Units 0 e) [1, 2, 3, 4, 5, 6, 7, 8, 9, 10, 11, 12, 13, 14, 15] 0
    else if n then nearestCode x (b4Units type e) [9, 10, 11, 12, 13, 14, 15] 8
    else nearestCode x (b4Units type e) [1, 2, 3, 4, 5, 6, 7] 0
  | _ => 0

/-- The smallest EXP of step 3 of R104, searched upward from `e` with fuel; none when no EXP up to 62 reaches `a` (in units of 2^-149). -/
def qExp (tmax a : Nat) : Nat → Nat → Option Nat
  | 0, _ => none
  | k + 1, e => if a * 8 ≤ tmax <<< (e + 117) then some e else qExp tmax a k (e + 1)

/-- `qblk(x[0..31], T)` of R104 over FP32 patterns. -/
def qblk (type : Nat) (xs : List Nat) : QBlk :=
  let vs := xs.map (FFmt.unpack .fp32)
  if vs.any (fun v => match v with | .fin .. => false | _ => true) then
    ⟨64 * type + 63, xs.map (fun _ => 0), vs.foldl (fun f v => f ||| v.sig) 0, 0⟩
  else
    let a := vs.foldl (fun m v => max m (mag149 v)) 0
    if a = 0 then
      ⟨64 * type, vs.map (fun v => match v with | .fin true _ _ => (if type = 0 then 0 else 8) | _ => 0), 0, 0⟩
    else
      let (e, fl0) := match qExp (b4Max type) a 63 0 with | some e => (e, (0 : Flags)) | none => (62, fOF)
      let codes := vs.map (qElem type e)
      let ds := (vs.zip codes).map (fun (v, c) =>
        match v with
        | .fin n m k => (signedMul n (m <<< (k + 152).toNat), b4Units type e c)
        | _ => (0, 0))
      let fl1 := if ds.any (fun (x, y) => x != y) then fNX else 0
      let fl2 := if ds.any (fun (x, y) => x != 0 && y == 0) then fUF else 0
      ⟨64 * type + e, codes, fl0 ||| fl1 ||| fl2, ds.foldl (fun s (x, y) => s + (x - y).natAbs * (x - y).natAbs) 0⟩

/-- The better of two blocks of R105; the first wins a tie. -/
def betterBlk (a b : QBlk) : QBlk := if b.err < a.err then b else a

/-- `qblk` with `.auto` (R105): the least error over the four types, the lower type at a tie; a NaN block takes type 0. -/
def qblkAuto (xs : List Nat) : QBlk :=
  betterBlk (betterBlk (betterBlk (qblk 0 xs) (qblk 1 xs)) (qblk 2 xs)) (qblk 3 xs)

/-- A B4 value as an FP32 pattern; every one is exact (R103, R208). -/
def b4ToFp32 (sc c : Nat) : Nat := (fRound .fp32 .rne (b4Value sc c)).val

/-! ## Error-feedback rounding (R106) -/

/-- The steps of R106 on one lane: the converted value, the new residue and the flags. -/
def cvtEfLane (D : FFmt) (sat : Bool) (x r : Nat) : Nat × Nat × Flags :=
  let t := fAdd .fp32 .rne (FFmt.fp32.unpack x) (FFmt.fp32.unpack r)
  let y := cvtFF .fp32 D .rne sat t.val
  match FFmt.fp32.unpack t.val, D.unpack y.val with
  | _, .nan _ => (y.val, 0, t.fl ||| y.fl)
  | .fin n m e, yv =>
    let d := fAdd .fp32 .rne (.fin n m e) yv.negated
    (y.val, d.val, t.fl ||| y.fl ||| d.fl)
  | _, _ => (y.val, 0, t.fl ||| y.fl)

/-! ## XS128 (R107 to R109) -/

/-- An XS128 state (R109); `e = none` when no finite non-zero contribution has been seen. -/
structure XS where
  s  : BitVec 128
  e  : Option Int
  fl : BitVec 6
deriving DecidableEq, Repr

def XS.empty : XS := ⟨0, none, 0⟩

/-- floor(log2 |x|) of a finite non-zero FP32 value (R107). -/
def fvLog2 : FV → Option Int
  | .fin _ m e => if m = 0 then none else some (e + Nat.log2 m)
  | _ => none

/-- The larger of two optional exponents. -/
def maxExp (a b : Option Int) : Option Int :=
  match a, b with
  | some x, some y => some (max x y)
  | some x, none => some x
  | none, y => y

/-- `xs128_emax` over FP32 patterns. -/
def xsEmax (xs : List Nat) : Option Int := xs.foldl (fun e x => maxExp e (fvLog2 (FFmt.fp32.unpack x))) none

/-- `xs128_q(x, E)`: rne(x * 2^(100-E)) as an integer. -/
def xsQ (n : Bool) (m : Nat) (e E : Int) : Int := signedMul n (roundTo .rne n m (e + 100 - E) 0).1

/-- FLAGS bits of one contribution (R109). -/
def xsFlags (v : FV) : BitVec 6 :=
  32 ||| (match v with
    | .nan s => 17 ||| (if s then 8 else 0)
    | .inf n => 16 ||| (if n then 4 else 2)
    | .fin n m _ => if n && m = 0 then 0 else 16)

/-- Add one FP32 contribution to a state at exponent `E` (pass 2 of R107). -/
def XS.add (E : Int) (st : XS) (x : Nat) : XS :=
  let v := FFmt.fp32.unpack x
  match v with
  | .fin n m e => { st with s := st.s + BitVec.ofInt 128 (if m = 0 then 0 else xsQ n m e E), fl := st.fl ||| xsFlags v }
  | _ => { st with fl := st.fl ||| xsFlags v }

/-- The state of a list of contributions (R107, R109). -/
def xsState (xs : List Nat) : XS :=
  let e := xsEmax xs
  { xs.foldl (XS.add (e.getD 0)) XS.empty with e := e }

/-- The result of R108. -/
def XS.out (st : XS) : FR :=
  let b := fun i => st.fl.getLsbD i
  if b 0 then ⟨FFmt.fp32.nanPat, if b 3 then fNV else 0⟩
  else if b 1 && b 2 then ⟨FFmt.fp32.nanPat, fNV⟩
  else if b 1 then ⟨FFmt.fp32.infPat, 0⟩
  else if b 2 then ⟨FFmt.fp32.signPat true + FFmt.fp32.infPat, 0⟩
  else match st.e with
    | none => ⟨if b 5 && !b 4 then FFmt.fp32.signPat true else 0, 0⟩
    | some E => rndInt .fp32 .rne st.s.toInt (E - 100) false

/-- The 32-byte record of R109 as a number. -/
def XS.pack (st : XS) : Nat :=
  st.s.toNat + 2 ^ 128 * (match st.e with | none => 0x8000 | some E => wrapTo 16 E) + 2 ^ 144 * st.fl.toNat

/-- Read a record of R109. -/
def XS.unpack (x : Nat) : XS :=
  let e := sval 16 (bitsOf x 143 128)
  ⟨BitVec.ofNat 128 x, if e = -32768 then none else some e, BitVec.ofNat 6 (x >>> 144)⟩

/-! ## Finite field (R114) -/

/-- The loop of `gf_mul`, `k` bits still to do. -/
def gfLoop : Nat → Nat → Nat → Nat → Nat
  | 0, _, _, p => p
  | k + 1, a, b, p =>
    let p := if b % 2 = 1 then p ^^^ a else p
    let a := 2 * a
    gfLoop k (if a.testBit 8 then a ^^^ 0x11d else a) (b / 2) p

/-- `gf_mul(a, b)` in GF(2^8) with polynomial 0x11D. -/
def gfMul (a b : Byte) : Byte := BitVec.ofNat 8 (gfLoop 8 a.toNat b.toNat 0)

end Sys2Proof.Machine
end

