-- ==== Sys2Proof/Machine/Lanes.lean ====
section
/-! DEFINITION. Lane results of vx and vp (spec/08_vector_ops.md): each operation as a function of its operands, the mask, the modifiers and
the rounding mode, with no state. A vector is the natural number of its 2,048 bits. -/
namespace Sys2Proof.Machine

/-- `lane(x, w, i)` of R169. -/
def lane (x w i : Nat) : Nat := (x >>> (w * i)) % 2 ^ w
/-- The `n` lanes of width `w`. -/
def lanes (x w n : Nat) : List Nat := (List.range n).map (lane x w)
/-- The vector whose lanes of width `w` are the list, from lane 0. -/
def pack (w : Nat) (l : List Nat) : Nat := l.foldr (fun x acc => (acc <<< w) + x % 2 ^ w) 0

/-- Is any group of lane `i` of width `w` on in the 64-bit group mask (R169 `sel`)? -/
def selLane (gm : BitVec 64) (w i : Nat) : Bool :=
  gm.getLsbD (w * i / 32) || gm.getLsbD ((w * i + w - 1) / 32)

/-- The 2,048 bits of the groups that are on. -/
def groupBits (gm : BitVec 64) : Nat := pack 32 ((List.range 64).map (fun g => if gm.getLsbD g then 0xffffffff else 0))

/-- What a vector operation lands: `.r`, `.h`, flags, and the bits of `.r` that keep the latch's content (R170, R202). -/
structure VRes where
  r    : Nat
  h    : Option Nat := none
  fl   : Flags := 0
  keep : Nat := 0
deriving DecidableEq, Repr

/-- The operands of a vector operation, as read in its trigger stitch (R193, R195): a, b, c, the MOD field, the group mask (all ones when
M = 0) with Z, and RMODE. -/
structure VIn where
  a  : Nat
  b  : Nat
  c  : Nat
  m  : BitVec 3
  gm : BitVec 64
  z  : Bool
  rm : RMode
deriving DecidableEq, Repr

/-- The rounding mode of an operation with an RNE override (R96, R157). -/
def VIn.mode (x : VIn) : RMode := if x.m.getLsbD 2 then .rne else x.rm

/-- `merge` of R170: groups that are off become zero when Z = 1 and keep the latch's content otherwise. -/
def merged (x : VIn) (r : Nat) (fl : Flags) : VRes :=
  let on := groupBits x.gm
  { r := r &&& on, fl := fl, keep := if x.z then 0 else (2 ^ 2048 - 1) - on }

/-- Apply a lane function where `sel` is 1, and OR the flags (R195, R99). -/
def mapLanes (x : VIn) (w n : Nat) (f : Nat → FR) : VRes :=
  let rs := (List.range n).map (fun i => if selLane x.gm w i then f i else ⟨0, 0⟩)
  merged x (pack w (rs.map FR.val)) (rs.foldl (fun g r => g ||| r.fl) 0)

/-! ## vx (R196 to R202) -/

/-- Element type of the FP operations of vx (R196). -/
def vxFmt (m : BitVec 3) : FFmt := match m.toNat % 4 with | 1 => .fp16 | 2 => .bf16 | _ => .fp32
/-- Element width of the integer operations of vx (R196). -/
def vxWidth (m : BitVec 3) : Nat := match m.toNat % 4 with | 1 => 8 | 2 => 64 | _ => 32

/-- An FP lane operation of R199 with one exact function and one rounding. -/
def vxFp (f : FFmt → RMode → Nat → Nat → Nat → FR) (x : VIn) : VRes :=
  let F := vxFmt x.m
  let w := F.width
  mapLanes x w (2048 / w) (fun i => f F x.mode (lane x.a w i) (lane x.b w i) (lane x.c w i))

/-- An integer lane operation of R197. -/
def vxInt (f : Nat → Nat → Nat → FR) (x : VIn) : VRes :=
  let w := vxWidth x.m
  mapLanes x w (2048 / w) (fun i => f w (lane x.a w i) (lane x.b w i))

/-- An integer lane function that raises no flag. -/
def plainInt (f : Nat → Nat → Nat → Nat) (w a b : Nat) : FR := ⟨f w a b % 2 ^ w, 0⟩
/-- A saturating lane function (R197): the exact integer, clamped to the signed or unsigned range. -/
def satInt (signed : Bool) (f : Int → Int → Int) (w a b : Nat) : FR :=
  let v := fun x => if signed then sval w x else (x : Int)
  let (r, fl) := clampTo (if signed then -(2 ^ (w - 1) : Nat) else 0) (if signed then (2 ^ (w - 1) : Nat) - 1 else (2 ^ w : Nat) - 1)
    (f (v a) (v b))
  ⟨wrapTo w r, fl⟩

/-- A bitwise operation on all 2,048 bits (R198). -/
def vxBits (f : Nat → Nat → Nat) (x : VIn) : VRes := merged x (f x.a x.b) 0

/-- The mask of a compare (R202): bit g is the AND of the predicate over the lanes of group g. -/
def vxCmp (w : Nat) (p : Nat → Bool × Flags) (x : VIn) : VRes :=
  let n := 2048 / w
  let ps := (List.range n).map (fun i => if selLane x.gm w i then p i else ((p i).1, 0))
  let lanesOf := fun g => if w = 64 then [g / 2] else (List.range (32 / w)).map (fun j => 32 / w * g + j)
  let bits := (List.range 64).map (fun g =>
    if x.gm.getLsbD g && (lanesOf g).all (fun i => (ps.getD i (false, 0)).1) then 1 else 0)
  { r := pack 1 bits, fl := ps.foldl (fun f q => f ||| q.2) 0,
    keep := if x.z then 0 else 2 ^ 64 - 1 - x.gm.toNat }

/-- An FP compare of R202; `quiet` compares set NV only for a signalling NaN. -/
def vxFcmp (quiet : Bool) (p : FV → FV → Bool) (x : VIn) : VRes :=
  let F := vxFmt x.m
  let w := F.width
  vxCmp w (fun i =>
    let a := F.unpack (lane x.a w i)
    let b := F.unpack (lane x.b w i)
    if a.isNan || b.isNan then (false, if quiet then a.sig ||| b.sig else fNV) else (p a b, 0)) x

/-- An integer compare of R202. -/
def vxIcmp (p : Nat → Nat → Nat → Bool) (x : VIn) : VRes :=
  let w := vxWidth x.m
  vxCmp w (fun i => (p w (lane x.a w i) (lane x.b w i), 0)) x

/-- Every vx operation, by its entry in R197 to R202. -/
def vxRun (o : VxOp) (x : VIn) : VRes :=
  match o with
  | .fadd => vxFp (fun F m a b _ => fAdd F m (F.unpack a) (F.unpack b)) x
  | .fsub => vxFp (fun F m a b _ => fAdd F m (F.unpack a) (F.unpack b).negated) x
  | .fmul => vxFp (fun F m a b _ => fMul F m (F.unpack a) (F.unpack b)) x
  | .fma => vxFp (fun F m a b c => fFma F m (F.unpack a) (F.unpack b) (F.unpack c)) x
  | .fms => vxFp (fun F m a b c => fFma F m (F.unpack a) (F.unpack b) (F.unpack c).negated) x
  | .fnma => vxFp (fun F m a b c => fFma F m (F.unpack a).negated (F.unpack b) (F.unpack c)) x
  | .fmin => vxFp (fun F _ a b _ => fMinMax F false a b) x
  | .fmax => vxFp (fun F _ a b _ => fMinMax F true a b) x
  | .fabs => vxFp (fun F _ _ b _ => fSignOp F (fun _ => false) b) x
  | .fneg => vxFp (fun F _ _ b _ => fSignOp F (fun s => !s) b) x
  | .fdiv => vxFp (fun F m a b _ => fDiv F m (F.unpack a) (F.unpack b)) x
  | .fsqrt => vxFp (fun F m _ b _ => fSqrt F m (F.unpack b)) x
  | .fceq => vxFcmp true fEq x
  | .fclt => vxFcmp false fLt x
  | .fcle => vxFcmp false (fun a b => fLt a b || fEq a b) x
  | .add => vxInt (plainInt (fun _ a b => a + b)) x
  | .sub => vxInt (plainInt (fun w a b => a + (2 ^ w - b))) x
  | .and => vxBits (· &&& ·) x
  | .or => vxBits (· ||| ·) x
  | .xor => vxBits (· ^^^ ·) x
  | .andn => vxBits (fun a b => a &&& (2 ^ 2048 - 1 - b)) x
  | .max => vxInt (plainInt (fun w a b => if sval w a < sval w b then b else a)) x
  | .min => vxInt (plainInt (fun w a b => if sval w b < sval w a then b else a)) x
  | .maxu => vxInt (plainInt (fun _ a b => max a b)) x
  | .minu => vxInt (plainInt (fun _ a b => min a b)) x
  | .mul => vxInt (plainInt (fun _ a b => a * b)) x
  | .mulh => vxInt (plainInt (fun w a b => wrapTo (2 * w) (sval w a * sval w b) >>> w)) x
  | .shl => vxInt (plainInt (fun w a b => a <<< (b % w))) x
  | .shr => vxInt (plainInt (fun w a b => a >>> (b % w))) x
  | .sra => vxInt (plainInt (fun w a b => wrapTo w (sval w a / (2 ^ (b % w) : Nat)))) x
  | .adds => vxInt (satInt true (· + ·)) x
  | .subs => vxInt (satInt true (· - ·)) x
  | .addsu => vxInt (satInt false (· + ·)) x
  | .subsu => vxInt (satInt false (· - ·)) x
  | .ceq => vxIcmp (fun _ a b => a == b) x
  | .clt => vxIcmp (fun w a b => sval w a < sval w b) x
  | .cltu => vxIcmp (fun _ a b => a < b) x

/-- Latency and occupancy of a vx operation (spec/03_core.md R72; R199, R201). -/
def vxLat (o : VxOp) : Nat :=
  match o with
  | .fadd | .fsub | .fmul | .fma | .fms | .fnma | .fmin | .fmax => 4
  | .fdiv | .fsqrt => 12
  | _ => 2
def vxOcc (o : VxOp) : Nat := match o with | .fdiv | .fsqrt => 4 | _ => 1

/-! ## vp (R203 to R211) -/

/-- Lane width of the shape operations (R157, R203). -/
def vpWidth (m : BitVec 3) : Nat := match m.toNat with | 1 => 16 | 2 => 8 | 3 => 64 | 4 => 4 | _ => 32

/-- A shape operation: lane i of the result (R203). -/
def vpShape (f : Nat → Nat → Nat → Nat) (x : VIn) : VRes :=
  let w := vpWidth x.m
  let n := 2048 / w
  merged x (pack w ((List.range n).map (f w n))) 0

/-- Is lane `i` kept by the group mask in the low 64 bits of b (R204)? -/
def keptLane (b w i : Nat) : Bool := selLane (BitVec.ofNat 64 b) w i

/-- compress and expand (R204). -/
def vpCompress (x : VIn) : VRes :=
  let w := vpWidth x.m
  let n := 2048 / w
  merged x (pack w (((List.range n).filter (keptLane x.b w)).map (lane x.a w))) 0
def vpExpand (x : VIn) : VRes :=
  let w := vpWidth x.m
  let n := 2048 / w
  let (l, _) := (List.range n).foldl (fun (p : List Nat × Nat) i =>
    if keptLane x.b w i then (lane x.a w p.2 :: p.1, p.2 + 1) else (0 :: p.1, p.2)) ([], 0)
  merged x (pack w l.reverse) 0

/-- The control word of cvt (R205): source and destination formats and PART. -/
structure CvtCtl where
  s : Fmt
  d : Fmt
  part : Nat
deriving DecidableEq, Repr

/-- The checks of R205: formats 0x0 to 0x8 and PART below the ratio of the widths. -/
def cvtCtl (a : Nat) : Option CvtCtl :=
  match Fmt.ofCode (a % 16), Fmt.ofCode (a / 16 % 16) with
  | some s, some d =>
    let part := a / 256 % 8
    if s = .b4 || d = .b4 || max s.width d.width / min s.width d.width ≤ part then none else some ⟨s, d, part⟩
  | _, _ => none

/-- `vp.cvt` (R205). -/
def vpCvt (k : CvtCtl) (x : VIn) : VRes :=
  let wS := k.s.width
  let wD := k.d.width
  let n := 2048 / max wS wD
  let sat := !x.m.getLsbD 1
  let rs := (List.range n).map (fun j =>
    let o := if wD ≤ wS then k.part * n + j else j
    let v := if wD ≤ wS then lane x.b wS j else lane x.b wS (k.part * n + j)
    if selLane x.gm wD o then cvt v k.s k.d x.mode sat else ⟨0, 0⟩)
  let r := pack wD (rs.map FR.val)
  merged x (if wD ≤ wS then r <<< (wD * (k.part * n)) else r) (rs.foldl (fun g q => g ||| q.fl) 0)

/-- The checks of R206: FP32 to FP16, BF16, E4M3 or E5M2, with PART 0. -/
def cvtEfCtl (a : Nat) : Option FFmt :=
  if a % 16 ≠ 0 || a / 256 % 8 ≠ 0 then none
  else match a / 16 % 16 with | 1 => some .fp16 | 2 => some .bf16 | 3 => some .e4m3 | 4 => some .e5m2 | _ => none

/-- `vp.cvt.ef` (R206). -/
def vpCvtEf (D : FFmt) (x : VIn) : VRes :=
  let sat := !x.m.getLsbD 1
  let rs := (List.range 64).map (fun i =>
    if selLane x.gm D.width i then cvtEfLane D sat (lane x.b 32 i) (lane x.c 32 i) else (0, lane x.c 32 i, 0))
  { merged x (pack D.width (rs.map (fun q => q.1))) (rs.foldl (fun g q => g ||| q.2.2) 0) with h := some (pack 32 (rs.map (fun q => q.2.1))) }

/-- `vp.qblk` (R207). -/
def vpQblk (x : VIn) : VRes :=
  let blk := fun j =>
    let xs := (List.range 32).map (fun i => lane x.b 32 (32 * j + i))
    if x.m.toNat = 4 then qblkAuto xs else qblk (x.m.toNat % 4) xs
  let b0 := blk 0
  let b1 := blk 1
  { r := pack 4 (b0.codes ++ b1.codes), h := some (b0.scale + 256 * b1.scale), fl := b0.fl ||| b1.fl }

/-- `vp.dqblk` (R208). -/
def vpDqblk (x : VIn) : VRes :=
  { r := pack 32 ((List.range 64).map (fun i => b4ToFp32 (lane x.a 8 (i / 32)) (lane x.b 4 i))) }

/-- The types of rsum, rmax and rmin (R157, R209): none is INT32. -/
def redFmt (m : BitVec 3) : Option FFmt := match m.toNat % 4 with | 0 => some .fp32 | 1 => some .fp16 | 2 => some .bf16 | _ => none

/-- rsum, rmax, rmin (R209). -/
def vpReduce (o : VpOp) (x : VIn) : VRes :=
  let w := match redFmt x.m with | some F => F.width | none => 32
  let n := 2048 / w
  let (unsel, node) : Nat × (Nat → Nat → FR) :=
    match redFmt x.m, o with
    | some F, .rsum => (0, fun a b => fAdd F x.mode (F.unpack a) (F.unpack b))
    | some F, .rmax => (F.nanPat, fMinMax F true)
    | some F, _ => (F.nanPat, fMinMax F false)
    | none, .rsum => (0, plainInt (fun _ a b => a + b) 32)
    | none, .rmax => (2 ^ 31, plainInt (fun w a b => if sval w a < sval w b then b else a) 32)
    | none, _ => (2 ^ 31 - 1, plainInt (fun w a b => if sval w b < sval w a then b else a) 32)
  let xs := (List.range n).map (fun i => if selLane x.gm w i then lane x.b w i else unsel)
  let (l, fl) := pairTree node (Nat.log2 n) xs
  { r := l.headD 0, fl := fl }

/-- `vp.rbsum` (R210): the selected lanes are the contributions. R158 lets no word give it a mask, so the words of the opcode table select
every lane (log entry 43). -/
def vpRbsum (x : VIn) : VRes :=
  let st := xsState (((List.range 64).filter (selLane x.gm 32)).map (lane x.b 32))
  let o := st.out
  { r := o.val, h := some st.pack, fl := o.fl }

/-- The number of 1 bits among the low `k` bits. -/
def popN (x : Nat) : Nat → Nat | 0 => 0 | k + 1 => popN x k + (if x.testBit k then 1 else 0)
/-- The lowest 1 bit at or above `i` of a `w`-bit value, searched with `k` left; `w` if none. -/
def lowBit (x w : Nat) : Nat → Nat → Nat | 0, _ => w | k + 1, i => if x.testBit i then i else lowBit x w k (i + 1)

/-- Every vp operation but cvt and cvt.ef, whose operands are checked first (R203 to R211). -/
def vpRun (o : VpOp) (x : VIn) : VRes :=
  let s := x.b % 2 ^ 64
  match o with
  | .perm => vpShape (fun w n i => lane x.a w (lane x.b w i % n)) x
  | .bcast => vpShape (fun w _ _ => lane x.b w 0) x
  | .slideup => vpShape (fun w n i => let d := min s n; if d ≤ i then lane x.a w (i - d) else lane x.c w (n - d + i)) x
  | .slidedn => vpShape (fun w n i => let d := min s n; if i + d < n then lane x.a w (i + d) else lane x.c w (i + d - n)) x
  | .iota => vpShape (fun w _ i => (s + i) % 2 ^ w) x
  | .rot => vpShape (fun w n i => lane x.a w ((i + (n - s % n)) % n)) x
  | .ilv => vpShape (fun w n i => lane (if i % 2 = 0 then x.a else x.b) w (n / 2 * (x.c % 2) + i / 2)) x
  | .dilv => vpShape (fun w n i => let k := 2 * i + x.c % 2; if k < n then lane x.a w k else lane x.b w (k - n)) x
  | .compress => vpCompress x
  | .expand => vpExpand x
  | .rsum => vpReduce .rsum x
  | .rmax => vpReduce .rmax x
  | .rmin => vpReduce .rmin x
  | .mand => { r := x.a &&& x.b &&& (2 ^ 64 - 1) }
  | .mor => { r := (x.a ||| x.b) &&& (2 ^ 64 - 1) }
  | .mxor => { r := (x.a ^^^ x.b) &&& (2 ^ 64 - 1) }
  | .mnot => { r := 2 ^ 64 - 1 - s }
  | .mpop => { r := popN s 64 }
  | .mfirst => { r := lowBit s 64 64 0 }
  | .qblk => vpQblk x
  | .dqblk => vpDqblk x
  | .rbsum => vpRbsum x
  | .cvt => match cvtCtl x.a with | some k => vpCvt k x | none => {r := 0}
  | .cvtEf => match cvtEfCtl x.a with | some D => vpCvtEf D x | none => {r := 0}

/-- Latency of a vp operation (spec/03_core.md R72; R203 to R211). -/
def vpLat (o : VpOp) : Nat :=
  match o with
  | .mand | .mor | .mxor | .mnot | .mpop | .mfirst | .iota => 1
  | .qblk | .dqblk => 4
  | .rsum | .rmax | .rmin => 6
  | .rbsum => 8
  | _ => 3

end Sys2Proof.Machine
end

