-- ==== Sys2Proof/Machine/State.lean ====
section
/-! DEFINITION. The state of the package as plain data, and the state after reset. Every due stitch is held as the SC of its region at which
it falls (spec/03_core.md R89, R90). Sparse collections are lists of key and value with rising keys; an unlisted byte of a memory reads as
zero (log entry 3), and a memory lists no zero byte. -/
namespace Sys2Proof.Machine

/-- Why the machine stops with a fault. The faults of the spec are events that a region records and holds on (spec/02_stitch_time.md R43);
they are next states. This one is raised by nothing in the spec. -/
inductive Fault where
  /-- Raised by `step` when the word at the head of the move queue no longer decodes; BUNDLE_ISSUE queues only moves that decode, so only a
  state that no run reaches raises it. Safe: the hardware has no such state. -/
  | staleMoveQueue
deriving DecidableEq, Repr

/-- Why an instruction has no meaning in the model. -/
inductive Refusal where
  /-- Raised by `exec` for an instruction whose meaning is not written. Safe: the model stops where the hardware goes on. -/
  | notModelled (mnemonic : String)
deriving DecidableEq, Repr

/-- A sparse collection keyed by a number, keys rising. -/
abbrev Map (α : Type) := List (Nat × α)
/-- A byte memory in canonical form. -/
abbrev Mem := List Host.Cell

/-- The origin that a poisoned byte carries: location class and unit id (spec/16_faults_recovery.md R358, R403). -/
structure Poison where
  cls  : Nat
  unit : Nat
deriving DecidableEq, Repr
/-- Poisoned bytes of a memory, by address. -/
abbrev Marks := Map Poison

/-- Bytes on their way, with the marks of the poisoned ones by offset (R403). -/
structure Chunk where
  bytes : List Byte := []
  marks : Marks := []
deriving DecidableEq, Repr

/-- The operations of a bank ALU on a scratchpad or near bank (spec/07_scalar_ops.md R189, spec/10_transfer_sync_ops.md R247). -/
inductive AOp where
  | add | and | or | xor | min | max | minu | maxu | xchg | cas | fadd | fmin | fmax
deriving DecidableEq, Repr

/-! ## A core -/

/-- A unit's operand ports, latches, and the trigger that last occupied it (spec/03_core.md R66 to R71). 64-bit ports and latches use the low
64 bits. -/
structure UnitSt where
  o0   : Vec := 0
  o1   : Vec := 0
  o2   : Vec := 0
  r    : Vec := 0
  h    : Vec := 0
  trig : Nat := 0
  occ  : Nat := 0
deriving DecidableEq, Repr

/-- What a landing record delivers, and where (R89; R192, R214, R231, R264). `keep` are the bits of a latch that a masked landing leaves; `sel` is
the index and the kind (0 row, 1 column, 2 zero) of a tile landing, 16 * index + 1024 * kind (R347). -/
inductive LandTo where
  | latch (u : UnitId) (hi : Bool) (val keep : Vec)
  | vback (n : Fin 32) (val : Vec) (dst baddr : Nat)
  | special (n : Nat) (val : W64) (sy : Bool)
  | tagSet (slot : Nat) (entry : BitVec 128)
  | tagInv (slot : Nat)
  | tile (n sel : Nat) (words : Map (BitVec 32))
deriving DecidableEq, Repr

/-- A landing record: due stitch, trigger stitch, destination, and the VSTAT flags its landing sets (R89, R99). -/
structure Landing where
  due  : Nat
  trig : Nat
  tgt   : LandTo
  fl   : Flags := 0
deriving DecidableEq, Repr

/-- What a bank-access record does in its slot (R73, R185 to R191). -/
inductive BankKind where
  | load (signed : Bool)
  | store (data : Vec) (on : BitVec 64)
  | atomRd (op : AOp) (v cmp : W64)
  | atomWr (val : Option W64) (fl : Flags)
deriving DecidableEq, Repr

/-- A bank-access record of ls: slot stitch, trigger stitch, DST and MOD of the trigger, address, size (R89, R347). -/
structure BankAcc where
  due  : Nat
  trig : Nat
  dst  : Nat
  addr : Nat
  size : Nat
  kind : BankKind
  mod  : BitVec 3 := 0
deriving DecidableEq, Repr

/-- A register write that takes effect at the end of the stitch (R70); a write-back carries the DST and bundle address of its compact op (R88). -/
inductive EndW where
  | g (n : Fin 32) (x : W64)
  | v (n : Fin 32) (x : Vec)
  | p (n : Fin 8) (x : W64)
  | vback (n : Fin 32) (x : Vec) (dst baddr : Nat)
deriving DecidableEq, Repr

/-- The issue state of a core (spec/02_stitch_time.md R34): `idle s` and `waiting s` issue again at stitch s at the earliest;
`halted s` is halted from stitch s. -/
inductive Issue where
  | noRegion | issuing | idle (resume : Nat) | waiting (resume : Nat) | halted (since : Nat)
deriving DecidableEq, Repr

/-- A taken branch still due (spec/07_scalar_ops.md R179). -/
structure Redirect where
  due    : Nat
  target : Nat
deriving DecidableEq, Repr

/-- An unfinished multiply: latched control word and descriptors, and the slices and side data read but still needed (spec/09_matrix_ops.md
R230, R236). `slices` are the A and B bytes of a step; `sides` are keyed by the order of the fetches of R226. `bad` lists voided steps. -/
structure MxMul where
  trig   : Nat
  baddr  : Nat
  sparse : Bool
  ctl    : W64
  a      : BitVec 256
  b      : BitVec 256
  steps  : Nat
  slices : Map (List Byte × List Byte) := []
  sides  : Map (List Byte) := []
  bad    : List Nat := []
deriving DecidableEq, Repr

/-- An unfinished tile load or store (R232); `bad` lists rows voided by a contested slot; `undo` is what the first slot of the latest row of two
slots wrote over. -/
structure MxMove where
  trig : Nat
  baddr : Nat
  load : Bool
  ctl  : W64
  td   : BitVec 256
  tile : Nat
  rows : Nat
  cols : Nat
  m    : Nat
  rm   : RMode
  bad  : List Nat := []
  undo : Chunk := {}
deriving DecidableEq, Repr

/-- The matrix engine: unfinished operations, finish stitches not yet committed, and the completion stitch of each group (R222, R233). `rowFl` are the
flags of the rows that tile stores write in the present stitch, by bank (R78, R232): a move of the stitch sees them in VSTAT. -/
structure MxEng where
  muls  : List MxMul := []
  moves : List MxMove := []
  opens : List Nat := []
  grp   : Vector Nat 8 := Vector.replicate 8 0
  rowFl : Map Flags := []
deriving DecidableEq, Repr

/-- The transfer operations that run as engine state (spec/10_transfer_sync_ops.md R241, R246, R247). -/
inductive XfKind where
  | send | recv | getn | putn | getf | putf | gathf | scatf | amon (op : AOp) (n : Nat) (v cmp : W64)
deriving DecidableEq, Repr

/-- An unfinished transfer. Its name is its trigger stitch. `read0`, `slot0`, `land0` are the stitches of beat 0 at the source scratchpad, at
the remote bank or H-die, and of its landing or effect (R241, R246); for a put or scatter `slot0` is the effect stitch of an unprotected page.
`leaves` are the page entries it uses by 64 KiB frame, and `missed` the frames still to be filled with their cause stitches
(spec/14_system_state.md R322, R323), `denied` those of pages that the access may not use; `list` the address of the index list and `rows` the far row addresses of a gather or scatter; `hops` the routers that a beat has passed (R303);
`peer` the sending core of a recv, and its trigger stitch; `jrn` whether the journal holds it (R260); `grp` the group it is committed to (R249);
`bad` the beats whose probe found a lost stripe, with their decision stitch (R401); `gone` the beats voided. -/
structure Xfer where
  kind   : XfKind
  trig   : Nat
  baddr  : Nat
  ctl    : W64
  scr    : Nat
  rem    : Nat
  len    : Nat
  beat   : Nat
  read0  : Nat
  slot0  : Nat
  land0  : Nat
  mod    : Bool := false
  td     : BitVec 256 := 0
  list   : Nat := 0
  rows   : List Nat := []
  leaves : Map (BitVec 64) := []
  missed : Map Nat := []
  denied : List Nat := []
  data   : Map Chunk := []
  hops   : Map Nat := []
  peer   : Option (Nat × Nat) := none
  jrn    : Bool := false
  grp    : Option Nat := none
  bad    : Map Nat := []
  gone   : List Nat := []
deriving DecidableEq, Repr

/-- The transfer engine: unfinished transfers, finishes not yet committed, the completion stitch of each group (R249), and the latest finish of
any operation (R258). -/
structure XfEng where
  xfers : List Xfer := []
  opens : List Nat := []
  grp   : Vector Nat 8 := Vector.replicate 8 0
  last  : Nat := 0
deriving DecidableEq, Repr

/-- Special registers with a home in the core (R77 to R83). -/
structure Specials where
  ltinfo  : W64 := 0
  vstat   : Flags := 0
  vtrapen : Flags := 0
  rmode   : BitVec 2 := 0
  notify  : W64 := 0
  acfg    : Vector W64 16 := Vector.replicate 16 0
  guard   : Vector W64 4 := Vector.replicate 4 0
  watch   : Vector W64 2 := Vector.replicate 2 0
  td      : Vector (BitVec 256) 32 := Vector.replicate 32 0
deriving DecidableEq, Repr

/-- The register files (R74). -/
structure Regs where
  g : Vector W64 32 := Vector.replicate 32 0
  v : Vector Vec 32 := Vector.replicate 32 0
  p : Vector W64 8 := Vector.replicate 8 0
deriving DecidableEq, Repr

/-- A fault record: the eight words of R315. -/
abbrev FRec := Vector W64 8

/-- Everything a core holds (INVENTORY.md, State). `regP` are the poisoned values of its registers, ports, latches, landing records, special registers,
descriptors, tag slots and tiles, under the keys of `EndW.regKey`, `portKey`, `latchKey`, `recKey`, `crKey`, `slotKey` and `tileKey`
(spec/16_faults_recovery.md R358). -/
structure Core where
  regs  : Regs := {}
  regP  : Marks := []
  units : Vector UnitSt 12 := Vector.replicate 12 {}
  sp    : Specials := {}
  tags  : Map (BitVec 128) := []
  tiles : Map (BitVec 32) := []
  saved : Map (BitVec 32) := []
  scr   : Mem := []
  scrP  : Marks := []
  imem  : Mem := []
  imemP : Marks := []
  issue : Issue := .noRegion
  pc    : Nat := 0
  cur   : Nat := 0
  redir : List Redirect := []
  lands : List Landing := []
  banks : List BankAcc := []
  endW  : List EndW := []
  mx    : MxEng := {}
  xf    : XfEng := {}
  arr   : Option Nat := none
  tce   : Map (BitVec 128) := []
  rr    : BitVec 6 := 0
  frec  : List FRec := []
  ovf   : Bool := false
deriving DecidableEq, Repr

/-! ## A region -/

/-- The descriptor fields of a region (spec/14_system_state.md R312) and its fixed extent (spec/02_stitch_time.md R28 to R30). `wdog` and `plimit` are the
limits in force; `wdogNew` and `plimNew` those written during the present hold, which apply from the next thaw or restore. -/
structure Descr where
  state  : Nat := 0
  part   : Nat := 0
  band   : Nat := 0
  ease   : Nat := 0
  auto   : Bool := false
  x0     : Nat := 0
  y0     : Nat := 0
  wid    : Nat := 0
  hgt    : Nat := 0
  npkg   : Nat := 0
  pkg    : Nat := 0
  lfab   : Nat := 0
  wdog   : Nat := 2 ^ 32
  plimit : Nat := 2 ^ 20
  wdogNew : Option Nat := none
  plimNew : Option Nat := none
  save   : Nat := 0
  pbanks : Nat := 0
  parea  : Nat := 0
  jbase  : Nat := 0
  jcap   : Nat := 0
  grant  : Map W64 := []
deriving DecidableEq, Repr

/-- A recorded cause of a hold (spec/02_stitch_time.md R42, R43): its code (R315, R354), location or writer class, cause stitch, core, and
whether it is resolved (R312). `tag` is the trigger stitch of the transfer that an XLATE cause concerns; `unit` the id of the unit that a
DATA_UNCORRECTABLE record names; `judged` says that the verdict which the cause awaited has been acted on (R367, R368). -/
structure Cause where
  code     : Nat
  cls      : Nat := 0
  cs       : Nat
  core     : Nat := 0
  resolved : Bool := false
  tag      : Nat := 0
  unit     : Nat := 0
  judged   : Bool := false
deriving DecidableEq, Repr

/-- The drawstring segment and the record of the latest hold (R37 to R41, R304, R312). -/
structure Seg where
  mask   : Nat := 0
  relDue : Option Nat := none
  holdAt : Option Nat := none
  held   : Bool := false
  causes : List Cause := []
  holdSc : Nat := 0
  toRel  : Nat := 0
  await  : Nat := 0
deriving DecidableEq, Repr

/-- Operations that every non-halted core must issue at one stitch, awaiting their check (R59, R258, R261). -/
inductive SameOp where
  | phint | cdopen | cdclose
deriving DecidableEq, Repr
/-- One core's issue of such an operation: the core (region-relative), the bundle's address, the liveness entry, and the near range. -/
structure SameIssue where
  core  : Nat
  baddr : Nat
  entry : Nat
  a     : Nat := 0
  len   : Nat := 0
deriving DecidableEq, Repr
structure SameCheck where
  op    : SameOp
  at_   : Nat
  cores : List SameIssue
deriving DecidableEq, Repr

/-- A pre-emption request: its stitch, the pre-emption point, whether it was forced, and the entries named (R58 to R61). -/
structure Pre where
  req    : Option Nat := none
  armed  : Bool := false
  point  : Option Nat := none
  forced : Bool := false
  named  : Map Nat := []
  saving : Bool := false
deriving DecidableEq, Repr

/-- One copy beat of a containment domain (R259): core, space (near), address, length, read stitch, and what it read. -/
structure CopyBeat where
  core : Nat
  near : Bool
  addr : Nat
  len  : Nat
  due  : Nat
  tgt   : Nat
  done : Bool := false
  fail : Bool := false
deriving DecidableEq, Repr

/-- A run of bytes that lie together on one H-die: logical H-die, offset there, length, the position of its first byte in the beat, the page
entry, and the position in the page (spec/14_system_state.md R320, R325). -/
structure FarRun where
  h    : Nat
  off  : Nat
  len  : Nat
  pos  : Nat
  leaf : BitVec 64
  v    : Nat
deriving DecidableEq, Repr

/-- An entry of the far-write journal with its held writes: the transfer, its place in the journal, and what has taken effect: the effect stitch,
length and runs of beat j at key 2j for its bytes in unprotected pages and at 2j + 1 for those in protected ones (R260, R361). -/
structure JEntry where
  trig : Nat
  core : Nat
  lvl  : Nat
  pos  : Nat
  va   : Nat
  eff  : Nat
  prot : Bool := false
  len  : Nat
  beats : Map (Nat × Nat × List FarRun) := []
deriving DecidableEq, Repr

/-- The counters and issued checks of a region that a rollback restores (R35, R364). -/
structure Clock where
  sc    : Nat := 0
  ssc   : Nat := 0
  cdlev : Nat := 0
deriving DecidableEq, Repr

/-- An open containment domain (R258 to R262, R359, R360): its snapshot of every core, of the segment and of the checks awaited, its copies, and
the retry marks and rollback count of R356. -/
structure Domain where
  level  : Nat
  open_  : Nat
  clk    : Clock
  relDue : Option Nat
  cores  : Map Core
  names  : Map Nat
  near   : Map (Nat × Nat)
  copies : List CopyBeat
  unprot : Bool
  bad    : Bool := false
  rolled : Nat := 0
  retry  : List (Nat × Nat × Nat) := []
  same   : List SameCheck := []
deriving DecidableEq, Repr

/-- The entry of a route in one router of its physical path (spec/13_programs_region.md R303): the physical core of the router, as PHYS of R315 packs
it, or the id of its bridge (spec/14_system_state.md R306), the ports (0 north, 1 east, 2 south, 3 west, 4 the core) by which it comes in and goes
out, the first channel and their number, and the padding
of the hop that begins here, in stitches. -/
structure RouteHop where
  router : Nat
  inward : Nat
  outward : Nat
  ch     : Nat
  width  : Nat
  pad    : Nat
deriving DecidableEq, Repr

/-- A route of a region (spec/06_encoding.md R165, spec/15_region_scheduler.md R339): source and destination cores (region-relative, y within the
part) and their parts, dimension order, channels, and its lengths h, d and f (R48). `on` turns off when the region is unpicked (R349); `phys` are
the entries of its physical path on this package (spec/13_programs_region.md R303). -/
structure Route where
  sx    : Nat
  sy    : Nat
  dx    : Nat
  dy    : Nat
  order : Nat
  ch    : Nat
  width : Nat
  h     : Nat
  d     : Nat
  f     : Nat
  sp    : Nat := 0
  dp    : Nat := 0
  on    : Bool := true
  phys  : List RouteHop := []
deriving DecidableEq, Repr

/-- A link of an engine program (spec/11_puzil.md R272): to a rank or to a region core, with its latency, and the fabric crossings on it, each of
which adds L to the latency (R30). `away` marks a core of a part on another package. -/
structure Link where
  toCore : Bool
  peer   : Nat
  lam    : Nat
  fab    : Nat := 0
  away   : Bool := false
deriving DecidableEq, Repr

/-- A write of an engine still to be made: to local memory or to a window (R282). `src` is the link of another package by which its bytes come. -/
structure PWrite where
  due    : Nat
  window : Option Nat
  addr   : Nat
  chunk  : Chunk
  fl     : Flags := 0
  step   : Nat := 0
  src    : Option Nat := none
deriving DecidableEq, Repr

/-- A token of `signal` on its way (R292). -/
structure PToken where
  due  : Nat
  core : Nat
  tok  : Nat
  fl   : Flags
deriving DecidableEq, Repr

/-- One engine program of a plan (R268 to R275): the engine, the place of its words, its links, FLAGS, chunks received but not yet landed, and
what is still pending. `void` are the ops, by word and iteration, that a contested bank or engine voids in this stitch (R297); `bad` the chunks, by the
stitch in which a recv takes them, that came by a group whose tag failed: void, or poisoned from a place on (spec/18_links_host_boot.md R389). -/
structure Rank where
  engine : Nat
  base   : Nat
  words  : Nat
  links  : Map Link := []
  fl     : Flags := 0
  inbox  : List PWrite := []
  writes : List PWrite := []
  tokens : List PToken := []
  void   : List (Nat × Nat) := []
  bad    : Map (Option (Nat × Poison)) := []
deriving DecidableEq, Repr

/-- A plan set up for a region (R273). `rel` is the release stitch of an armed or running firing; `fin` the last completion stitch plus 1, 0 when
it has never run; `fired` the stitch, core and bundle address of the latest ctrig, and whether another clashed with it (R263). -/
structure Plan where
  handle : Nat
  index  : Nat := 0
  fpa    : Nat := 0
  ranks  : List Rank
  banks  : List (Nat × Nat) := []
  chans  : List (Nat × Nat × Nat) := []
  clen   : Nat
  degen  : Bool := false
  rel    : Option Nat := none
  run    : Bool := false
  fin    : Nat := 0
  fired  : Option (Nat × Nat × Nat × Bool) := none
deriving DecidableEq, Repr

/-- The kept state of a saved region (R346 to R348): engine state whose layout is private to the device. -/
structure Saved where
  clk    : Clock
  cores  : Map Core
  forced : Bool
  named  : Map Nat
deriving DecidableEq, Repr

/-- A piece of work of the present stitch: an event, or the op word of an engine (plan handle, rank, word index, iteration). -/
inductive Task where
  | ev (i : Instr)
  | op (handle rank word iter : Nat)
deriving DecidableEq, Repr

/-- What remains of the present stitch of a region (the model's own, log entry 6). -/
structure Work where
  stage  : Nat := 0
  agenda : List Task := []
  next   : Nat := 0
deriving DecidableEq, Repr

/-- Bookkeeping of the scheduler for a placed region (spec/15_region_scheduler.md): its schedule and image, the release cycle sent, the stitch of the
latest release or restore, and of an unpick the phase of the purge tree, the end of the sweep, the units whose bits are set, the reason, and whether its schedule is to be placed again. -/
structure Placed where
  sid     : Nat := 0
  image   : Nat := 0
  relCyc  : Nat := 0
  since   : Nat := 0
  purge   : Nat := 0
  purgeAt : Nat := 0
  units   : List Nat := []
  reason  : Nat := 0
  again   : Bool := false
deriving DecidableEq, Repr

/-- A region. `closing` is the stitch of the close whose journal waits, in `apply`, to be applied at `applyAt`, with the closed domain; `poisoned`
says that its application could not go on (spec/16_faults_recovery.md R362; spec/17_program_recovery.md R378); `kept` that a vote without a majority
keeps the region held (R367); `badP` are the poisoned structures of class 15 of R358: the drawstring segment at 0, route n at 1 + n, and the links
and state of engine e at 2048 + e. -/
structure Region where
  d       : Descr := {}
  clk     : Clock := {}
  seg     : Seg := {}
  pre     : Pre := {}
  same    : List SameCheck := []
  doms    : List Domain := []
  closing : Option (Nat × Domain) := none
  applyAt : Nat := 0
  poisoned : Bool := false
  journal : List JEntry := []
  apply   : List JEntry := []
  routes  : Map Route := []
  plans   : List Plan := []
  hung    : Bool := false
  kept    : Bool := false
  badP    : Marks := []
  saved   : Option Saved := none
  work    : Work := {}
  pl      : Placed := {}
deriving DecidableEq, Repr

/-! ## The package -/

/-- A slot of the schedule table (spec/15_region_scheduler.md R327): 0 free, 1 waiting, 2 runnable, 3 placed, 4 saved. -/
structure Slot where
  state : Nat := 0
  count : Int := 0
  words : List W64 := []
  prio  : Nat := 0
  since : Nat := 0
  rg    : Nat := 0
deriving DecidableEq, Repr

/-- A launch ring (R332). -/
structure Ring where
  base : Nat := 0
  log  : Nat := 0
  prod : Nat := 0
  cons : Nat := 0
deriving DecidableEq, Repr

/-- The command window (R333). -/
structure Window where
  busy   : Bool := false
  op     : Nat := 0
  status : Nat := 0
  result : Nat := 0
  args   : Vector W64 4 := Vector.replicate 4 0
deriving DecidableEq, Repr

/-- A router of the tack plane (spec/14_system_state.md R308 to R311): link-down bits (0 north, 1 east, 2 south, 3 west, 4 + p local port p), detours,
and the packets held, each with its virtual network (true: reply), the port it came in by, and its flits. -/
structure TackRouter where
  down   : BitVec 20 := 0
  detour : Map W64 := []
  bufs   : List (Bool × Nat × List W64) := []
deriving DecidableEq, Repr

/-- A service processor (spec/16_faults_recovery.md R366, R367; spec/18_links_host_boot.md R390, R395, R397): in service, the verdict it formed,
its boot step: 0 not begun, 1 out of service, 2 waiting for the recovery image, 8 booted; and whether a secured session with it is open. -/
structure Sp where
  serving : Bool := false
  verdict : Option Verdict := none
  boot    : Nat := 0
  session : Bool := false
deriving DecidableEq, Repr

/-- A fabric port direction pair (R379 to R390). `cabled` says that its training found it joined to the opposite port of the same column, as the
parts of a region need (R382); `atIn` and `atOut` are the group counters at which the ends have agreed to take the next key (R390). -/
structure Port where
  up      : Bool := false
  cabled  : Bool := false
  lfab    : Nat := 0
  prot    : Bool := false
  skid    : Bool := false
  keyset  : Nat := 0
  actIn   : Option (BitVec 256) := none
  actOut  : Option (BitVec 256) := none
  nextIn  : Option (BitVec 256) := none
  nextOut : Option (BitVec 256) := none
  atIn    : Nat := 0
  atOut   : Nat := 0
  epochIn : Nat := 0
  epochOut : Nat := 0
  ctrIn   : Nat := 0
  ctrOut  : Nat := 0
deriving DecidableEq, Repr

/-- A message that leaves the modelled part: an interrupt message of R392, a reply on the tack plane (R309), a report, an answer of SPDM (R397):
measurements, a certificate chain, a signature, a share of a key exchange; or a group that a protected port sends, by its counter and tag (R388). -/
inductive Msg where
  | msi (event hart ident arg : Nat)
  | reply (status : Nat) (data : List W64)
  | report (kind arg : Nat)
  | attest (data : List (BitVec 256))
  | chain (data : List Byte)
  | signature (sig : BitVec 3072)
  | share (data : BitVec 768)
  | group (port ctr : Nat) (tag : BitVec 96)
deriving DecidableEq, Repr

/-- The maps that place logical units on silicon (spec/01_panel.md R18 to R22; spec/17_program_recovery.md R377). `retired` is keyed by
physical die and core row: 64 * column + 8 * row + core row. `excluded` and `remote` name logical dies u + 12 v, `remote` with the package and the
latency of the spare (R369); `halves` the bridges, by engine key, that have lost a half; `banks` the banks that remapping moved, 64 * bridge +
bank; `seams` the failed channels of a physical directed seam, 4 * die + direction (R368 row 4; `Maps.physSeam`). -/
structure Maps where
  darned   : Option Nat := none
  retired  : Map Nat := []
  hmap     : Vector Nat 24 := Vector.ofFn (fun i => if i.val < 12 then i.val else i.val + 1)
  excluded : List Nat := []
  remote   : Map (Nat × Nat) := []
  halves   : List (Nat × Bool) := []
  banks    : Map Nat := []
  seams    : Map Nat := []
deriving DecidableEq, Repr

/-- H-dies, by physical number: those lost; those being rebuilt, with the offset that the rebuild has reached and the 512-byte units rebuilt
ahead of it; the spares that a loss was darned to, and the 32-byte units of them written since, which carry no lost mark; the ownership bytes
by 128 * physical H-die + block; the copies in progress, from a die to its spare; the protected pages that the H-dies knew when a die was lost;
and the marks that poisoned bytes written into protected pages carry, by 2^37 * logical H-die + offset of the data byte: the stripes themselves
stay in order (spec/16_faults_recovery.md R371 to R374, R402, R403). -/
structure HDies where
  lost    : List Nat := []
  rebuild : Map Nat := []
  ahead   : List Nat := []
  spares  : List Nat := []
  cleared : List Nat := []
  own     : Map Byte := []
  copy    : Map Nat := []
  prot    : List (BitVec 64) := []
  carried : Marks := []
deriving DecidableEq, Repr

/-- The region scheduler (spec/15_region_scheduler.md). `east`: the active one is on the east control die; `beat`: the cycle of the latest heartbeat;
`handle`: the next plan handle; `hold`: the origin held for a schedule (R344), as SID, x and y. -/
structure Sched where
  slots   : Map Slot := []
  rings   : Vector Ring 8 := Vector.replicate 8 {}
  win     : Window := {}
  parts   : Map W64 := []
  east    : Bool := false
  westUp  : Bool := true
  eastUp  : Bool := true
  beat    : Nat := 0
  handle  : Nat := 1
  hold    : List (Nat × Nat × Nat) := []
deriving DecidableEq, Repr

/-- What a boot finds (spec/18_links_host_boot.md R395): the self tests of the two service processors pass (step 1); the fabric ports trained, with
latency, skid and protection (step 3); the repairs of what training and the self test of the units have found (steps 3 to 6); whether the vote on the
maps has a majority (step 5); and whether the host firmware could be loaded (step 7). -/
structure BootReport where
  west     : Bool := true
  east     : Bool := true
  ports    : List (Nat × Nat × Bool × Bool) := []
  repairs  : List Verdict := []
  majority : Bool := true
  host     : Bool := true
deriving DecidableEq, Repr

/-- Boot, fuses, power and votes (spec/18_links_host_boot.md R394 to R400; R366, R367). `image` and `imageEast` are what the management controller
delivers from the board's flash to the west and the east service processor, and `good` is the one that a processor has verified. `vote` is 1 while a
neighbour's vote is awaited, since cycle `voteAt`, from the package that `neighbour` names, if there is one, and 2 while the operator's choice is;
`acting` is the verdict acted on. `barred` says that the vote on the maps has had no majority, so that no region is launched, and `hostOut` that the
host firmware could not be loaded (R395). `finds` is what the next boot finds, which comes from outside as the entries of `State.inputs` do (the model's
own, log entry 39). -/
structure Boot where
  rail    : Bool := false
  keyHash : BitVec 256 := 0
  minSvn  : Nat := 0
  image   : List Byte := []
  imageEast : List Byte := []
  good    : List Byte := []
  verified : Bool := false
  measure : Map (BitVec 256) := []
  west    : Sp := {}
  east    : Sp := {}
  vote    : Nat := 0
  voteAt  : Nat := 0
  neighbour : Option Nat := none
  acting  : Option Verdict := none
  barred  : Bool := false
  hostOut : Bool := false
  finds   : BootReport := {}
deriving DecidableEq, Repr

/-- Where the next move or event acts (the model's own, log entry 6): region, core, the addresses of the moves of the bundle still to run,
and the engine whose op word runs: plan handle, rank, word and iteration. -/
structure Focus where
  rg    : Nat := 0
  core  : Nat := 0
  moves : List Nat := []
  eng   : Option (Nat × Nat × Nat × Nat) := none
deriving DecidableEq, Repr

/-- An invalidation of a translation cache whose reply waits (spec/14_system_state.md R324): the region that held the core and the core's number in
it, the removed page entries, and where the write came as a packet its router and header, to answer with a packet. -/
structure TcWait where
  rg     : Option Nat
  rel    : Nat
  leaves : List (BitVec 64)
  reply  : Option (Nat × W64) := none
deriving DecidableEq, Repr

/-- The state of one package. `tcWait` are the invalidations of translation caches whose reply waits; `imsic` gives the hart and identity of each event
of R392, and `pend` are the identities that are pending at the harts' IMSICs. -/
structure State where
  cores   : Map Core
  regions : Map Region
  near    : Mem
  nearP   : Marks
  mv      : Mem
  mvP     : Marks
  far     : Mem
  farP    : Marks
  engines : Map (Map (BitVec 128))
  maps    : Maps
  hdies   : HDies
  sched   : Sched
  tack    : Map TackRouter
  ports   : Map Port
  boot    : Boot
  corr    : Map (List Nat)
  imsic   : Map (Nat × Nat)
  pend    : List (Nat × Nat)
  out     : List Msg
  pcyc    : Nat
  focus   : Focus
  inputs  : List (Nat × Instr)
  tcWait  : List TcWait
  free    : Nat
deriving DecidableEq, Repr

/-- The state after reset: the rail off, no region, every map the identity, every core without a region and zero (spec/03_core.md R91 for the
values; log entries 2 to 7 for what the spec leaves open). -/
def State.reset : State :=
  { cores := [], regions := [], near := [], nearP := [], mv := [], mvP := [], far := [], farP := [], engines := [], maps := {}, hdies := {},
    sched := {}, tack := [], ports := [], boot := {}, corr := [], imsic := [], pend := [], out := [], pcyc := 0, focus := {}, inputs := [], tcWait := [], free := 0 }

end Sys2Proof.Machine
end

