-- ==== Sys2Proof/Machine/Store.lean ====
section
/-! DEFINITION. The named operations over sparse collections and byte memories. A memory lists its bytes by strictly rising address and lists
no zero byte; `Memory.wf` says so, and Sys2Proof/Laws/Store.lean proves that every operation keeps it. Memory is little-endian
(spec/00_scope.md R6). -/
namespace Sys2Proof.Machine

/-! ## Sparse collections -/

/-- The value at a key. -/
def mget {α : Type} : Map α → Nat → Option α
  | [], _ => none
  | (k, x) :: m, n => if k = n then some x else mget m n

/-- Set the value at a key, keeping keys rising. -/
def mset {α : Type} : Map α → Nat → α → Map α
  | [], n, x => [(n, x)]
  | (k, y) :: m, n, x => if n < k then (n, x) :: (k, y) :: m else if n = k then (n, x) :: m else (k, y) :: mset m n x

/-- Remove a key. -/
def mdel {α : Type} : Map α → Nat → Map α
  | [], _ => []
  | (k, y) :: m, n => if k = n then m else (k, y) :: mdel m n

/-- The value at a key, or a default. -/
def mgetD {α : Type} (m : Map α) (n : Nat) (d : α) : α := (mget m n).getD d

/-- Apply a function to the value at a key, if it is listed. -/
def mmod {α : Type} (m : Map α) (n : Nat) (f : α → α) : Map α :=
  match mget m n with | some x => mset m n (f x) | none => m

/-- Set several keys. -/
def msets {α : Type} (m : Map α) (l : Map α) : Map α := l.foldl (fun m p => mset m p.1 p.2) m

/-- Merge two sorted collections; the second wins at a common key. The first argument is fuel, at least the sum of the lengths. -/
def mmergeGo {α : Type} : Nat → Map α → Map α → Map α
  | 0, _, _ => []
  | _ + 1, [], b => b
  | _ + 1, a, [] => a
  | k + 1, (x, p) :: a, (y, q) :: b =>
    if x < y then (x, p) :: mmergeGo k a ((y, q) :: b)
    else if y < x then (y, q) :: mmergeGo k ((x, p) :: a) b
    else (y, q) :: mmergeGo k a b

/-- Merge a sorted list of new values into a collection. -/
def mmerge {α : Type} (a b : Map α) : Map α := mmergeGo (a.length + b.length + 1) a b

/-! ## Memories -/

/-- A byte of memory; an unlisted address reads as zero (log entry 3). -/
def Memory.read (m : Mem) (a : Nat) : Byte := (mget m a).getD 0

/-- Write a byte; writing zero removes the entry. -/
def Memory.write (m : Mem) (a : Nat) (b : Byte) : Mem := if b = 0 then mdel m a else mset m a b

/-- `n` bytes from `a`. -/
def Memory.readN (m : Mem) (a n : Nat) : List Byte := (List.range n).map (fun i => Memory.read m (a + i))

/-- Write bytes from `a` upward. -/
def Memory.writeN : Mem → Nat → List Byte → Mem
  | m, _, [] => m
  | m, a, b :: bs => Memory.writeN (Memory.write m a b) (a + 1) bs

/-- The canonical form: strictly rising addresses from `lo`, no zero byte. -/
def Memory.wfFrom : Nat → Mem → Bool
  | _, [] => true
  | lo, (a, b) :: m => decide (lo ≤ a) && decide (b ≠ 0) && Memory.wfFrom (a + 1) m

/-- The canonical form of a memory. -/
def Memory.wf (m : Mem) : Bool := Memory.wfFrom 0 m

/-- A number as `n` little-endian bytes. -/
def toBytes (n x : Nat) : List Byte := (List.range n).map (fun i => BitVec.ofNat 8 (x >>> (8 * i)))
/-- Little-endian bytes as a number. -/
def ofBytes (l : List Byte) : Nat := l.foldr (fun b acc => (acc <<< 8) + b.toNat) 0
/-- `n` bytes at `a` as a little-endian number. -/
def Memory.readLE (m : Mem) (a n : Nat) : Nat := ofBytes (Memory.readN m a n)
/-- Write a number as `n` little-endian bytes. -/
def Memory.writeLE (m : Mem) (a n x : Nat) : Mem := Memory.writeN m a (toBytes n x)

/-! ## Poison marks (spec/16_faults_recovery.md R358, R403) -/

/-- The first poisoned byte among `n` bytes at `a`: its offset and mark. -/
def firstPoison (p : Marks) (a n : Nat) : Option (Nat × Poison) :=
  match p with
  | [] => none
  | (k, x) :: m => if a ≤ k && k < a + n then some (k - a, x) else firstPoison m a n

/-- The marks of `n` bytes at `a`, by offset. -/
def marksAt (p : Marks) (a n : Nat) : Marks := (p.filter (fun q => a ≤ q.1 && q.1 < a + n)).map (fun q => (q.1 - a, q.2))

/-- The marks after `n` bytes at `a` are overwritten by bytes with the marks `q`. -/
def overwriteMarks (p : Marks) (a n : Nat) (q : Marks) : Marks :=
  msets (p.filter (fun x => x.1 < a || a + n ≤ x.1)) (q.map (fun x => (a + x.1, x.2)))

/-- Read a chunk: bytes with their marks (a move of R403). -/
def readChunk (m : Mem) (p : Marks) (a n : Nat) : Chunk := ⟨Memory.readN m a n, marksAt p a n⟩
/-- Write a chunk. -/
def writeChunk (m : Mem) (p : Marks) (a : Nat) (c : Chunk) : Mem × Marks :=
  (Memory.writeN m a c.bytes, overwriteMarks p a c.bytes.length c.marks)
/-- A part of a chunk. -/
def Chunk.slice (c : Chunk) (o n : Nat) : Chunk :=
  ⟨(c.bytes.drop o).take n, (c.marks.filter (fun q => o ≤ q.1 && q.1 < o + n)).map (fun q => (q.1 - o, q.2))⟩
/-- Two chunks, one after the other. -/
def Chunk.append (a b : Chunk) : Chunk := ⟨a.bytes ++ b.bytes, a.marks ++ b.marks.map (fun q => (q.1 + a.bytes.length, q.2))⟩

end Sys2Proof.Machine
end

