-- ==== Sys2Proof/Machine/Ops.lean ====
section
/-! DEFINITION. The named operations over the state: cores and regions, registers, ports and latches, landing records, and the raising of
faults and hold causes (spec/02_stitch_time.md R42, R43; spec/14_system_state.md R314, R315). Raising a fault is the one shared way in which
the machine takes an exception: it writes the record, adds the cause, and sets the stitch at which the region holds. -/
namespace Sys2Proof.Machine

/-! ## Regions and cores -/

def State.rgn (s : State) (n : Nat) : Region := mgetD s.regions n {}
def State.setRgn (s : State) (n : Nat) (r : Region) : State := { s with regions := mset s.regions n r }
def State.modRgn (s : State) (n : Nat) (f : Region → Region) : State := s.setRgn n (f (s.rgn n))
/-- A core by its number, 96 * y + x of its global logical coordinates (spec/01_panel.md R16). -/
def State.core (s : State) (c : Nat) : Core := mgetD s.cores c {}
def State.setCore (s : State) (c : Nat) (x : Core) : State := { s with cores := mset s.cores c x }
def State.modCore (s : State) (c : Nat) (f : Core → Core) : State := s.setCore c (f (s.core c))

/-- The number of cores of a region on this package. -/
def Descr.ncore (d : Descr) : Nat := d.wid * d.hgt
/-- The core number of a region-relative core index x + WID * y. -/
def Descr.coreAt (d : Descr) (c : Nat) : Nat := 96 * (d.y0 + c / d.wid) + d.x0 + c % d.wid
/-- The core numbers of a region, by region-relative index. -/
def Descr.coreIds (d : Descr) : List Nat := (List.range d.ncore).map d.coreAt
/-- The region-relative index of a core. -/
def Descr.relOf (d : Descr) (c : Nat) : Nat := (c / 96 - d.y0) * d.wid + (c % 96 - d.x0)
/-- Does the region hold the core? -/
def Descr.holds (d : Descr) (c : Nat) : Bool := d.x0 ≤ c % 96 && c % 96 < d.x0 + d.wid && d.y0 ≤ c / 96 && c / 96 < d.y0 + d.hgt

/-- The limits that a hold has had written come into force (spec/14_system_state.md R312). -/
def Descr.inForce (d : Descr) : Descr := { d with wdog := d.wdogNew.getD d.wdog, plimit := d.plimNew.getD d.plimit, wdogNew := none, plimNew := none }

/-- The delay Dr of R29. -/
def Descr.dr (d : Descr) : Nat := match d.band with | 0 => 12 | 1 => 48 | 2 => 128 | _ => 128 + 2 * d.lfab
/-- The delay Dh of R29. -/
def Descr.dh (d : Descr) : Nat := match d.band with | 0 => 16 | 1 => 64 | 2 => 160 | _ => 160 + 2 * d.lfab
/-- What band 3 adds to every far path (R48, R126). -/
def Descr.farAdd (d : Descr) : Nat := if d.band = 3 then 2 * d.lfab else 0

/-- The region in whose timetable the machine acts, and the core that acts (log entry 6). -/
def State.fr (s : State) : Region := s.rgn s.focus.rg
def State.fc (s : State) : Core := s.core s.focus.core
def State.setFc (s : State) (x : Core) : State := s.setCore s.focus.core x
def State.modFc (s : State) (f : Core → Core) : State := s.modCore s.focus.core f
def State.modFr (s : State) (f : Region → Region) : State := s.modRgn s.focus.rg f
/-- The stitch of the acting region. -/
def State.sc (s : State) : Nat := s.fr.clk.sc

/-- The members of a region's drawstring segment (R37). -/
def Region.member (r : Region) (c : Nat) : Bool := r.seg.mask.testBit (r.d.relOf c)

/-- Logical position status (spec/01_panel.md R17). -/
def Descr.lpos (d : Descr) (c : Nat) : Nat :=
  d.hgt * 2 ^ 48 + d.wid * 2 ^ 40 + d.y0 * 2 ^ 32 + d.x0 * 2 ^ 24 + d.pkg * 2 ^ 16 + (c / 96) * 2 ^ 8 + c % 96

/-! ## Physical places (spec/01_panel.md R18 to R22) -/

/-- The physical die column of logical column `u` (R19). -/
def Maps.dieCol (m : Maps) (u : Nat) : Nat := match m.darned with | some c => if c ≤ u then u + 1 else u | none => u
/-- The physical place of a core: core row, core column, die row, die column as PHYS of R315 packs them. -/
def Maps.phys (m : Maps) (c : Nat) : Nat :=
  let x := c % 96
  let y := c / 96
  let col := m.dieCol (x / 8)
  let cx := x % 8
  let ccol := match mget m.retired (64 * col + 8 * (y / 8) + y % 8) with | some f => if f ≤ cx then cx + 1 else cx | none => cx
  (y % 8) * 2 ^ 11 + ccol * 2 ^ 7 + (y / 8) * 2 ^ 4 + col

/-! ## Registers, ports and latches -/

def UnitId.fin : UnitId → Fin 12
  | .ia0 => 0 | .ia1 => 1 | .im => 2 | .ls => 3 | .vx => 4 | .vp => 5 | .mx => 6 | .xf => 7 | .br => 8 | .sy => 9 | .tg => 10 | .cr => 11

/-- A unit's state. -/
def Core.unit (c : Core) (u : UnitId) : UnitSt := c.units.get (UnitId.fin u)
def Core.setUnit (c : Core) (u : UnitId) (x : UnitSt) : Core := { c with units := c.units.set (UnitId.fin u).val x }

/-- The width of an operand port (spec/03_core.md R72). -/
def portWidth (u : UnitId) (k : Nat) : Nat :=
  match u with | .vx | .vp => 2048 | .ls => if k = 0 then 2048 else 64 | _ => 64

/-- Write an operand port with the low bits of a value (R65, R67). -/
def Core.writePort (c : Core) (u : UnitId) (k : Nat) (x : Nat) : Core :=
  let y : Vec := BitVec.ofNat 2048 (x % 2 ^ portWidth u k)
  let st := c.unit u
  c.setUnit u (match k with | 0 => { st with o0 := y } | 1 => { st with o1 := y } | _ => { st with o2 := y })

/-- A g register; g0 reads as zero (R70). -/
def Core.readG (c : Core) (n : Fin 32) : W64 := if n = 0 then 0 else c.regs.g.get n
def Core.readV (c : Core) (n : Fin 32) : Vec := c.regs.v.get n
def Core.readP (c : Core) (n : Fin 8) : W64 := c.regs.p.get n
def Core.latch (c : Core) (u : UnitId) (hi : Bool) : Vec := if hi then (c.unit u).h else (c.unit u).r

/-- The bits of a pointer register that are not reserved (R76); the device ignores what is written to the others (spec/00_scope.md R9). -/
def ptrBits (x : W64) : W64 := x &&& BitVec.ofNat 64 (2 ^ 58 - 1)

/-- Apply one register write of the end of a stitch; a write to g0 has no effect (R70). -/
def Regs.apply (r : Regs) (w : EndW) : Regs :=
  match w with
  | .g n x => if n = 0 then r else { r with g := r.g.set n.val x }
  | .v n x | .vback n x _ _ => { r with v := r.v.set n.val x }
  | .p n x => { r with p := r.p.set n.val (ptrBits x) }

/-- The key in `regP` of the register that a write of the end of a stitch makes. -/
def EndW.regKey (w : EndW) : Nat := match w with | .g n _ => n.val | .v n _ => 32 + n.val | .p n _ => 64 + n.val | .vback n _ _ _ => 32 + n.val
/-! ### The keys of poisoned values in `regP` (spec/16_faults_recovery.md R358; log entry 33) -/

/-- An operand port and a latch of a unit, and a record in flight or engine state, by its unit and trigger stitch (class 0). -/
def portKey (u k : Nat) : Nat := 72 + 3 * u + k
def latchKey (u : UnitId) (hi : Bool) : Nat := 108 + 2 * (UnitId.fin u).val + (if hi then 1 else 0)
def recKey (u : UnitId) (trig : Nat) : Nat := 2 ^ 40 + 16 * trig + (UnitId.fin u).val
/-- A special register or descriptor word, by its number of R77, and a tag slot (class 4). -/
def crKey (n : Nat) : Nat := 0x1000 + n
def slotKey (n : Nat) : Nat := 0x2000 + n
/-- Element 64 * i + j of a tile (class 3). -/
def tileKey (n q : Nat) : Nat := 0x10000 + 4096 * n + q
/-- Whole values are written: their marks go. -/
def Core.unmark (c : Core) (f : Nat → Bool) : Core := { c with regP := c.regP.filter (fun m => !f m.1) }
/-- The first poisoned value among those with keys. -/
def Core.firstMark (c : Core) (l : List Nat) : Option (Nat × Poison) := l.findSome? (fun n => (mget c.regP n).map (fun m => (n, m)))

/-- Make the register writes of the end of a stitch (R70). -/
def Core.endStitch (c : Core) : Core :=
  { c with regs := c.endW.foldl Regs.apply c.regs, regP := c.regP.filter (fun m => c.endW.all (fun w => w.regKey != m.1)), endW := [] }

/-! ## Landing records -/

/-- Add a landing record. -/
def Core.land (c : Core) (x : Landing) : Core := { c with lands := c.lands ++ [x] }
/-- Land a value on a latch, whole (R68). -/
def Core.landLatch (c : Core) (u : UnitId) (hi : Bool) (t l x : Nat) (fl : Flags) : Core :=
  c.land { due := t + l, trig := t, tgt := .latch u hi (BitVec.ofNat 2048 x) 0, fl := fl }
/-- A unit accepts its next trigger `n` stitches after `t` (R71). -/
def Core.occupy (c : Core) (u : UnitId) (t n : Nat) : Core := c.setUnit u { c.unit u with trig := t, occ := n }
/-- Is the unit occupied by an earlier trigger in stitch `t` (R71)? -/
def UnitSt.busy (x : UnitSt) (t : Nat) : Bool := x.trig < t && t < x.trig + x.occ

/-! ## Faults and hold causes -/

/-- What a fault or cause writes into its record (R315, R354): code, class, DST and bundle address of the operation, and the detail words. -/
structure FaultInfo where
  code  : Nat
  cls   : Nat := 0
  dst   : Nat := 0
  baddr : Nat := 0
  w5    : Nat := 0
  w6    : Nat := 0
  w7    : Nat := 0
  tag   : Nat := 0
deriving DecidableEq, Repr

/-- The eight words of a record (R315). -/
def mkFRec (m : Maps) (rg core ds hs : Nat) (f : FaultInfo) : FRec :=
  #v[BitVec.ofNat 64 (2 ^ 63 + rg * 2 ^ 16 + f.cls % 256 * 2 ^ 8 + f.code), BitVec.ofNat 64 ds, BitVec.ofNat 64 hs,
    BitVec.ofNat 64 (f.dst % 4096 * 2 ^ 17 + f.baddr % 2 ^ 17),
    BitVec.ofNat 64 ((core / 96) * 2 ^ 24 + core % 96 * 2 ^ 16 + m.phys core), BitVec.ofNat 64 f.w5, BitVec.ofNat 64 f.w6, BitVec.ofNat 64 f.w7]

/-- Add a record to a core; a fifth one is lost and sets OVF (R314). -/
def Core.addFRec (c : Core) (f : FRec) : Core := if c.frec.length < 4 then { c with frec := c.frec ++ [f] } else { c with ovf := true }

/-- The hold stitch of a cause at `cs`, with the causes already pending (R43). -/
def Region.holdFor (r : Region) (cs : Nat) : Nat := match r.seg.holdAt with | some h => min h (cs + r.d.dh) | none => cs + r.d.dh

/-- Add a hold cause to a region: it holds Dh after the earliest cause stitch (R43); a cause that arises while the region is held takes the
hold stitch as its cause stitch. -/
def Region.addCause (r : Region) (c : Cause) : Region :=
  if r.seg.held then { r with seg := { r.seg with causes := r.seg.causes ++ [{ c with cs := r.seg.holdSc }] } }
  else { r with seg := { r.seg with causes := r.seg.causes ++ [c], holdAt := some (r.holdFor c.cs) } }

/-- The detection stitch as recorded (R43). -/
def Region.stamp (r : Region) (cs : Nat) : Nat := if r.seg.held then r.seg.holdSc else cs

/-- Raise a fault or a core's hold cause: the record in the core's FREC, and the cause in the region (R43, R315, R357). -/
def State.raise (s : State) (rg core cs : Nat) (f : FaultInfo) : State :=
  let r := s.rgn rg
  let ds := r.stamp cs
  let hs := if r.seg.held then r.seg.holdSc else r.holdFor cs
  let s := s.modCore core (fun c => c.addFRec (mkFRec s.maps rg core ds hs f))
  s.setRgn rg (r.addCause { code := f.code, cls := f.cls, cs := ds, core := core, tag := f.tag, unit := if f.code = 0x50 then f.w7 else 0 })

/-- Raise a fault of the acting core in the present stitch. -/
def State.raiseHere (s : State) (f : FaultInfo) : State := s.raise s.focus.rg s.focus.core s.sc f

/-- A fault detected outside the cores is recorded at the region's origin core (R357). -/
def State.raiseOrigin (s : State) (rg cs : Nat) (f : FaultInfo) : State := s.raise rg ((s.rgn rg).d.coreAt 0) cs f

/-- A cause that arises outside the cores and leaves no record in a core (R315): REBUILD, PREEMPT, DEBUG. -/
def State.addCause (s : State) (rg cs code : Nat) : State := s.modRgn rg (fun r => r.addCause { code := code, cs := r.stamp cs })

def cXLATE : Nat := 0x70
def cREBUILD : Nat := 0x71
def cPREEMPT : Nat := 0x72
def cDEBUG : Nat := 0x73

/-- The next free value's number (log entries 7, 8, 11). -/
def State.fresh (s : State) : Nat × State := (s.free, { s with free := s.free + 1 })
/-- `n` bytes that come from another package: free values, for this package does not hold what the other sends (log entry 30). -/
def State.awayChunk (s : State) (n : Nat) : Chunk := ⟨(List.range n).map (Config.awayByte s.free), []⟩
/-- Send a message to the outside (R309, R392). -/
def State.send (s : State) (m : Msg) : State := { s with out := s.out ++ [m] }
/-- An interrupt message of R392, to the hart and identity programmed for its event, which is then pending at the hart's IMSIC. Events: 0 region
held, 1 completion word written, 2 refused
host access or dropped trigger, 3 vote without majority, 4 link down or rekey due, 5 thermal or power action. -/
def State.msi (s : State) (event arg : Nat) : State :=
  let dst := mgetD s.imsic event (0, 0)
  { s with out := s.out ++ [.msi event dst.1 dst.2 arg], pend := if s.pend.contains dst then s.pend else s.pend ++ [dst] }

/-- The outcome of a meaning. -/
abbrev Out := Host.Outcome State Fault Refusal

/-! ## Arithmetic of 64-bit operands -/

/-- Sign extension of the low `n` bits to 64 bits (R169). -/
def sext64 (n x : Nat) : Nat := wrapTo 64 (sval n x)
/-- The low 64 bits of a port. -/
def Core.o0 (c : Core) (u : UnitId) : Nat := (c.unit u).o0.toNat % 2 ^ 64
def Core.o1 (c : Core) (u : UnitId) : Nat := (c.unit u).o1.toNat % 2 ^ 64
def Core.o2 (c : Core) (u : UnitId) : Nat := (c.unit u).o2.toNat % 2 ^ 64

end Sys2Proof.Machine
end

