-- ==== Sys2Proof/Machine/Flags.lean ====
section
/-! DEFINITION. VSTAT, VTRAPEN and NOTIFY: setting, clearing and testing (spec/03_core.md R78 to R80; spec/04_numbers.md R99, R100). -/
namespace Sys2Proof.Machine

/-- OR flags into VSTAT (R99); no operation clears one. -/
def Core.setFlags (c : Core) (f : Flags) : Core := { c with sp := { c.sp with vstat := c.sp.vstat ||| f } }
/-- A write of ones clears (W1C, R8, R78). -/
def Core.clearFlags (c : Core) (x : W64) : Core := { c with sp := { c.sp with vstat := c.sp.vstat &&& ~~~(x.setWidth 7) } }
/-- Set NOTIFY bit `n` (R80). -/
def Core.notify (c : Core) (n : Nat) : Core := { c with sp := { c.sp with notify := c.sp.notify ||| (1 <<< (n % 64)) } }
/-- Clear NOTIFY bits (W1C, R80). -/
def Core.clearNotify (c : Core) (x : W64) : Core := { c with sp := { c.sp with notify := c.sp.notify &&& ~~~x } }
/-- VSTAT as a move of the present stitch finds it: with the flags of the rows that tile stores write in it (R78; spec/09_matrix_ops.md R232). -/
def Core.vstat (c : Core) : Flags := c.mx.rowFl.foldl (fun f q => f ||| q.2) c.sp.vstat
/-- The flags that a tfence finds trapped (R100). -/
def Core.trapped (c : Core) : Flags := c.vstat &&& c.sp.vtrapen
/-- The default rounding mode (R79, R96). -/
def Core.rmode (c : Core) : RMode := RMode.ofBits c.sp.rmode.toNat

end Sys2Proof.Machine
end

