-- ==== Sys2Proof/Machine/Operands.lean ====
section
/-! DEFINITION. Operand forms: the sources and destinations of moves (spec/03_core.md R65, R70, R75, R88), pointers (spec/05_memory.md R120),
scratchpad and near addresses (R117 to R124), and tensor descriptors (spec/03_core.md R83 to R85). -/
namespace Sys2Proof.Machine

/-! ## Sources -/

/-- The value of a source: a narrow one is zero-extended, an immediate first sign-extended to 64 bits (R65). -/
def Core.src (c : Core) (x : Src) : Nat :=
  match x with
  | .g n => (c.readG n).toNat
  | .v n => (c.readV n).toNat
  | .p n => (c.readP n).toNat
  | .r u => (c.latch u false).toNat
  | .h u => (c.latch u.unit true).toNat
  | .imm x => sext64 7 x.toNat

/-- The value of an immediate move (R152). -/
def immValue (x : BitVec 16) : Nat := sext64 16 x.toNat
/-- The value of a long immediate (R152). -/
def longValue (p : LitPos) (x : BitVec 32) : Nat :=
  match p with | .signExt => sext64 32 x.toNat | .zeroExt => x.toNat | .high => x.toNat * 2 ^ 32

/-- The 64 group bits of mask register m`k` as a move of the stitch reads it (R75, R169). -/
def Core.maskBits (c : Core) (k : BitVec 3) : BitVec 64 := (c.readV (Fin.ofNat 32 (24 + k.toNat))).setWidth 64

/-! ## Destinations -/

/-- The compact op that writes back `v n` in this stitch, by its DST and bundle address (R88). -/
def Core.writtenBack (c : Core) (n : Fin 32) : Option (Nat × Nat) :=
  c.endW.findSome? (fun w => match w with | .vback k _ d b => if k = n then some (d, b) else none | _ => none)

/-- Queue a register write of the end of the stitch (R70). -/
def Core.queueW (c : Core) (w : EndW) : Core := { c with endW := c.endW ++ [w] }

/-- A move of a value to a destination that is no trigger (R65, R67, R70). A move to a v register that a compact op writes back in the same
stitch raises WRITEBACK_COLLISION and has no effect (R88). -/
def movePlain (d : PlainDst) (x : Nat) (s : State) : State :=
  match d with
  | .port u k => s.modFc (fun c => c.writePort u k.val x)
  | .g n => s.modFc (fun c => c.queueW (.g n (BitVec.ofNat 64 x)))
  | .p n => s.modFc (fun c => c.queueW (.p n (BitVec.ofNat 64 x)))
  | .v n =>
    match s.fc.writtenBack n with
    | some (d, b) => s.raiseHere { code := 0x04, dst := d, baddr := b, w5 := 0xfa0 + n.val, w6 := 0xfa0 + n.val }
    | none => s.modFc (fun c => c.queueW (.v n (BitVec.ofNat 2048 x)))

/-- A short destination as a plain one (R147). -/
def ShortDst.plain : ShortDst → PlainDst
  | .g n => .g n
  | .v n => .v (n.castLE (by decide))
  | .port u k => .port u k

/-! ## Pointers -/

/-- The updated pointer of a `+` form (R120): ADDR advances by STRIDE, inside the window of WRAP bytes when WRAP is not 0. -/
def ptrNext (p : W64) : W64 :=
  let x := p.toNat
  let a := bitsOf x 20 0
  let st := sval 16 (bitsOf x 36 21)
  let w := bitsOf x 57 37
  let a' := if w = 0 then wrapTo 21 (a + st) else (a - a % w + (((a % w : Nat) + st) % (w : Int)).toNat) % 2 ^ 21
  BitVec.ofNat 64 (x - a + a')

/-! ## Scratchpad addresses (R117 to R119) -/

/-- The first unmapped scratchpad address (R117). -/
def scrEnd : Nat := 0x180000
/-- `bank_of` of R169. -/
def bankOf (a : Nat) : Nat := a / 2 ^ 19 % 4
/-- Does an access of `n ≥ 1` bytes at `a` lie mapped and in one bank (R119 check 1)? -/
def scrIn (a n : Nat) : Bool := decide (a + n ≤ scrEnd) && a / 2 ^ 19 == (a + n - 1) / 2 ^ 19
/-- The checks of R119 for one access: BOUNDS, then ALIGN. -/
def scrCheck (a n align : Nat) : Option Nat := if !scrIn a n then some 0x21 else if a % align ≠ 0 then some 0x20 else none

/-- Beats of `b` bytes of an `n`-byte transfer: offset and length of each (R240). -/
def beatsOf (b n : Nat) : List (Nat × Nat) := (List.range (ceilDiv n b)).map (fun i => (b * i, min (b * (i + 1)) n - b * i))

/-! ## Near addresses (R122, R123) -/

def nearV (a : Nat) : Nat := a / 2 ^ 30 % 8
def nearU (a : Nat) : Nat := a / 2 ^ 26 % 16
def nearBank (a : Nat) : Nat := a / 2 ^ 20 % 64
/-- Is the value a near address (R123)? -/
def nearIn (a : Nat) : Bool := decide (a < 2 ^ 33) && decide (nearU a < 12)
/-- Does an access of `n ≥ 1` bytes lie in near space and in one bank (R123)? -/
def nearOne (a n : Nat) : Bool := nearIn a && a / 2 ^ 20 == (a + n - 1) / 2 ^ 20
/-- Is the bank of a near address granted (R122, R312)? -/
def Descr.granted (d : Descr) (a : Nat) : Bool := (mgetD d.grant (nearU a + 12 * nearV a) 0).getLsbD (nearBank a)
/-- The granted banks as near addresses, in the order of R341 step 2: row, column and bank descending. -/
def Descr.bankList (d : Descr) : List Nat :=
  (List.range 96).reverse.flatMap (fun k =>
    let m := mgetD d.grant k 0
    if m = 0 then [] else
      (List.range 64).reverse.filterMap (fun b => if m.getLsbD b then some (k / 12 * 2 ^ 30 + k % 12 * 2 ^ 26 + b * 2 ^ 20) else none))
/-- The banks of the preserve area, and those of the journal (R341 step 2). -/
def Descr.prsvBanks (d : Descr) : List Nat := d.bankList.take d.pbanks
def Descr.jrnBanks (d : Descr) : List Nat := (d.bankList.drop d.pbanks).take (ceilDiv d.jcap (2 ^ 20))
/-- Does a near address lie in the preserve area or the journal, which a program cannot reach (R244)? -/
def Descr.reserved (d : Descr) (a : Nat) : Bool := (d.prsvBanks ++ d.jrnBanks).contains (a / 2 ^ 20 * 2 ^ 20)

/-- The logical-die distance of R48 from a core to the MH that holds a near address. -/
def nearDist (core a : Nat) : Nat :=
  let u := core % 96 / 8
  let v := core / 96 / 8
  (max u (nearU a) - min u (nearU a)) + (max v (nearV a) - min v (nearV a))

/-- The checks of R244 item 1 on one near access: BOUNDS, then ALIGN. -/
def nearCheck (a n align : Nat) : Option Nat := if !nearOne a n then some 0x21 else if a % align ≠ 0 then some 0x20 else none
/-- The check of R244 item 2 on one near access: the reason of the PROTECTION record (R354). -/
def Descr.nearProt (d : Descr) (a : Nat) : Option Nat := if !d.granted a then some 0 else if d.reserved a then some 1 else none

/-! ## Tensor descriptors (R83, R84) -/

def tdBase (t : BitVec 256) : Nat := bitsOf t.toNat 51 0
def tdFmt (t : BitVec 256) : Nat := bitsOf t.toNat 115 112
def tdSpace (t : BitVec 256) : Nat := bitsOf t.toNat 117 116
def tdRows (t : BitVec 256) : Nat := bitsOf t.toNat 133 121
def tdCols (t : BitVec 256) : Nat := bitsOf t.toNat 146 134
def tdStride (t : BitVec 256) : Nat := bitsOf t.toNat 191 160
def tdSbase (t : BitVec 256) : Nat := bitsOf t.toNat 212 192
def tdMbase (t : BitVec 256) : Nat := bitsOf t.toNat 244 224
/-- The element size in bytes; a B4 element is half a byte and constrains no stride here. -/
def tdElem (t : BitVec 256) : Nat := match Fmt.ofCode (tdFmt t) with | some f => max 1 (f.width / 8) | none => 1

/-- Check `k` of R84 on a descriptor; `s`, `m` say whether the operation uses SBASE, MBASE, and `al` is the alignment that it needs of BASE; an
operation that uses MBASE needs a multiple of 32 there (spec/09_matrix_ops.md R225). -/
def tdFails (t : BitVec 256) (s m : Bool) (al : Nat) (k : Nat) : Bool :=
  match k with
  | 1 => decide (9 < tdFmt t) || tdSpace t == 3
  | 2 => tdRows t == 0 || decide (4096 < tdRows t) || tdCols t == 0 || decide (4096 < tdCols t)
  | 3 => tdStride t % tdElem t != 0
  | 4 => tdBase t % al != 0 || (m && tdMbase t % 32 != 0)
  | _ => (match tdSpace t with | 0 => decide (scrEnd ≤ tdBase t) | 1 => !nearIn (tdBase t) | _ => false) ||
    (s && decide (scrEnd ≤ tdSbase t)) || (m && decide (scrEnd ≤ tdMbase t))

/-- The first failing check of R84. -/
def tdCheck (t : BitVec 256) (s m : Bool) (al : Nat) : Option Nat := [1, 2, 3, 4, 5].find? (tdFails t s m al)

/-! ## The trigger of an operation -/

/-- What a trigger move carries (R66, R151, R157): the operation, the value written to o1, MOD, the group mask with Z, and the pointer register
that a `+` form names. -/
structure Trig where
  o   : Op
  b   : Nat
  m   : BitVec 3
  gm  : BitVec 64
  z   : Bool
  ptr : Option (Fin 8)
deriving DecidableEq, Repr

/-- The operands and modifiers of a vector operation after its trigger wrote o1 (R193). -/
def Core.vin (c : Core) (u : UnitId) (x : Trig) : VIn :=
  let st := c.unit u
  { a := st.o0.toNat, b := st.o1.toNat, c := st.o2.toNat, m := x.m, gm := x.gm, z := x.z, rm := c.rmode }

end Sys2Proof.Machine
end

