-- ==== Sys2Proof/Machine/Scalar.lean ====
section
/-! DEFINITION. The scalar units: ia0 and ia1, im, br, cr, tg and ls (spec/07_scalar_ops.md). Each `start…` is the effect of an operation in its
trigger stitch, after its trigger move wrote o1. -/
namespace Sys2Proof.Machine

/-! ## ia (R174, R175) -/

/-- bfx of R175. -/
def iaBfx (a b : Nat) : Nat :=
  let len := min 64 (bitsOf b 12 6)
  let x := (a >>> bitsOf b 5 0) % 2 ^ len
  if b.testBit 13 && decide (0 < len) && x.testBit (len - 1) then x + (2 ^ 64 - 2 ^ len) else x
/-- bfi of R175. -/
def iaBfi (a b c : Nat) : Nat :=
  let len := min 64 (bitsOf b 12 6)
  let p := bitsOf b 5 0
  let m := ((2 ^ len - 1) <<< p) % 2 ^ 64
  (a &&& (2 ^ 64 - 1 - m)) ||| ((c <<< p) &&& m)
/-- pset of R175. -/
def iaPset (a b c : Nat) : Nat := bitsOf c 20 0 * 2 ^ 37 + bitsOf b 15 0 * 2 ^ 21 + bitsOf a 20 0

/-- The value that an ia operation lands (R174), from 64-bit operands. -/
def iaValue (o : IaOp) (a b c : Nat) : Nat :=
  let one := fun (p : Bool) => if p then 1 else 0
  let n := b % 64
  match o with
  | .add => (a + b) % 2 ^ 64
  | .sub => (a + (2 ^ 64 - b)) % 2 ^ 64
  | .and => a &&& b
  | .or => a ||| b
  | .xor => a ^^^ b
  | .shl => (a <<< n) % 2 ^ 64
  | .shr => a >>> n
  | .sra => wrapTo 64 (sval 64 a / (2 ^ n : Nat))
  | .sel => if b ≠ 0 then a else c
  | .cmpeq => one (a == b)
  | .cmplt => one (decide (sval 64 a < sval 64 b))
  | .cmpltu => one (decide (a < b))
  | .min => if sval 64 b < sval 64 a then b else a
  | .max => if sval 64 a < sval 64 b then b else a
  | .andn => a &&& (2 ^ 64 - 1 - b)
  | .rotl => ((a <<< n) ||| (a >>> (64 - n))) % 2 ^ 64
  | .minu => min a b
  | .maxu => max a b
  | .cmpne => one (a != b)
  | .cmpge => one (decide (sval 64 b ≤ sval 64 a))
  | .cmpgeu => one (decide (b ≤ a))
  | .bfx => iaBfx a b
  | .bfi => iaBfi a b c
  | .clz => if b = 0 then 64 else 63 - Nat.log2 b
  | .ctz => lowBit b 64 64 0
  | .popc => popN b 64
  | .pset => iaPset a b c

/-- An ia operation lands at t + 1 (R174). -/
def startIa (u : UnitId) (o : IaOp) (s : State) : State :=
  let c := s.fc
  s.setFc ((c.occupy u s.sc 1).landLatch u false s.sc 1 (iaValue o (c.o0 u) (c.o1 u) (c.o2 u)) 0)

/-! ## im (R177) -/

/-- An im operation (R177): multiplies land `.r` at t + 3; the div family lands at t + 20 and occupies im for 20 stitches. -/
def startIm (o : ImOp) (s : State) : State :=
  let c := s.fc
  let a := c.o0 .im
  let b := c.o1 .im
  let t := s.sc
  let mulc := fun x => (c.occupy .im t 1).landLatch .im false t 3 x 0
  let divc := fun (signed quot : Bool) =>
    let (q, r, fl) := divRem signed 64 a b
    let c := c.occupy .im t 20
    let c := if quot then c.landLatch .im false t 20 q 0 else c
    c.landLatch .im true t 20 r fl
  s.setFc (match o with
    | .mul => mulc (a * b % 2 ^ 64)
    | .mulh => mulc (wrapTo 128 (sval 64 a * sval 64 b) >>> 64)
    | .mulhu => mulc ((a * b) >>> 64)
    | .div => divc true true
    | .divu => divc false true
    | .rem => divc true false
    | .remu => divc false false)

/-! ## br (R179, R180) -/

/-- The four parcels from an address, as one number (R143). -/
def parcels (m : Mem) (a : Nat) : Nat := Memory.readLE m a 8
/-- Is the move an idle move, which ends its bundle (R153)? -/
def isIdle (w : Nat) : Bool := w % 2 == 1 && w / 4 % 4 == 3 && bitsOf w 7 4 == 0
/-- Cut a bundle into moves (R144): address and parcels of each, at most `n` of them. -/
def cutBundle (m : Mem) : Nat → Nat → List (Nat × Nat)
  | 0, _ => []
  | n + 1, a =>
    let w := parcels m a
    if w.testBit 1 || isIdle w then [(a, w)] else (a, w) :: cutBundle m n (a + 2 * moveSize w)
/-- The address after the last parcel of a bundle: `next(X)` of R179. DESIGN CHOICE (log entry 44): past 0x1_FFFF, where the spec names no parcels,
a parcel decodes as zero and the address does not wrap. -/
def nextBundle (m : Mem) (a : Nat) : Nat :=
  match (cutBundle m 6 a).getLast? with | some (b, w) => b + 2 * moveSize w | none => a

/-- Whether a branch is taken, its target, and what it lands (R180), with B the bundle's address and `link` the latch before it. -/
def brEffect (o : BrOp) (B a b c link ra : Nat) : Bool × Nat × Option Nat :=
  let n := (b + (2 ^ 64 - 1)) % 2 ^ 64
  match o with
  | .jmp => (true, b, none)
  | .jr => (true, B + b, none)
  | .bz => (b == 0, a, none)
  | .bnz => (b != 0, a, none)
  | .bltz => (b.testBit 63, a, none)
  | .bgez => (!b.testBit 63, a, none)
  | .beq => (b == c, a, none)
  | .call => (true, b, some ra)
  | .callr => (true, B + b, some ra)
  | .ret => (true, link, none)
  | .loop => (n != 0, a, some n)

/-- A br operation: a taken branch leaves a redirect due at t + 3 (R179); bit 0 of an address is ignored (R143). -/
def startBr (o : BrOp) (s : State) : State :=
  let c := s.fc
  let t := s.sc
  let nx := nextBundle c.imem
  let (taken, target, lands) := brEffect o c.cur (c.o0 .br) (c.o1 .br) (c.o2 .br) ((c.latch .br false).toNat % 2 ^ 64) (nx (nx (nx c.cur)))
  let c1 := c.occupy .br t 1
  let c2 := match lands with | some x => c1.landLatch .br false t 1 x 0 | none => c1
  s.setFc (if taken then { c2 with redir := c2.redir ++ [⟨t + 3, target % 2 ^ 17 / 2 * 2⟩] } else c2)

/-! ## cr (R77 to R83, R183) -/

/-- The value that a special register reads, or none for an unassigned number (R77). -/
def crRead (r : Region) (id : Nat) (c : Core) (n : Nat) : Option Nat :=
  if n = 0 then some (r.clk.sc % 2 ^ 64)
  else if n = 1 then some (r.clk.ssc % 2 ^ 64)
  else if n = 2 then some (r.d.lpos id)
  else if n = 3 then some c.sp.ltinfo.toNat
  else if n = 0x10 then some c.vstat.toNat
  else if n = 0x11 then some c.sp.vtrapen.toNat
  else if n = 0x12 then some c.sp.rmode.toNat
  else if n = 0x13 then some r.clk.cdlev
  else if n = 0x14 then some c.sp.notify.toNat
  else if 0x20 ≤ n ∧ n < 0x30 then some (c.sp.acfg.get (Fin.ofNat 16 (n - 0x20))).toNat
  else if 0x30 ≤ n ∧ n < 0x34 then some (c.sp.guard.get (Fin.ofNat 4 (n - 0x30))).toNat
  else if 0x38 ≤ n ∧ n < 0x3a then some (c.sp.watch.get (Fin.ofNat 2 (n - 0x38))).toNat
  else if 0x100 ≤ n ∧ n < 0x180 then some (lane (c.sp.td.get (Fin.ofNat 32 ((n - 0x100) / 4))).toNat 64 (n % 4))
  else none

/-- The writable bits of each word of a tensor descriptor (R83): reserved fields read as zero and ignore what is written (R9). -/
def tdWordMask (w : Nat) : Nat :=
  match w with
  | 0 => 2 ^ 52 - 1
  | 1 => (2 ^ 64 - 2 ^ 57) + (2 ^ 54 - 2 ^ 48)
  | 2 => (2 ^ 19 - 1) + (2 ^ 64 - 2 ^ 32)
  | _ => (2 ^ 21 - 1) + (2 ^ 53 - 2 ^ 32)

/-- A descriptor or LTINFO as a load takes it from an image: the reserved bits stay zero (R9, R79, R83). DESIGN CHOICE (log entry 57): a COUNT above
1,024, a BASE that is no multiple of 64 and a table that runs past 0x1_FFFF refuse no image; the bits stay as given. -/
def tdClean (x : BitVec 256) : BitVec 256 :=
  x &&& BitVec.ofNat 256 (tdWordMask 0 + tdWordMask 1 * 2 ^ 64 + tdWordMask 2 * 2 ^ 128 + tdWordMask 3 * 2 ^ 192)
def ltClean (x : Nat) : W64 := BitVec.ofNat 64 (x % 2 ^ 28)

/-- Set word `w` of a 256-bit value. -/
def setWord256 (x : BitVec 256) (w : Nat) (v : W64) : BitVec 256 :=
  let m : BitVec 256 := BitVec.ofNat 256 ((2 ^ 64 - 1) <<< (64 * w))
  (x &&& ~~~m) ||| BitVec.ofNat 256 (v.toNat <<< (64 * w))

/-- The effect of a special-register write when it lands (R77 to R83): read-only registers and fields ignore it, W1C bits clear. -/
def Specials.write (p : Specials) (n : Nat) (x : W64) : Specials :=
  if n = 0x10 then { p with vstat := p.vstat &&& ~~~(x.setWidth 7) }
  else if n = 0x11 then { p with vtrapen := x.setWidth 7 }
  else if n = 0x12 then { p with rmode := x.setWidth 2 }
  else if n = 0x14 then { p with notify := p.notify &&& ~~~x }
  else if 0x20 ≤ n ∧ n < 0x30 then
    let k := n - 0x20
    let old := p.acfg.get (Fin.ofNat 16 k)
    let m : W64 := 0x800000000003ffff
    { p with acfg := p.acfg.set (k % 16) ((x &&& m) ||| (old &&& 0x4000000000000000)) (Nat.mod_lt _ (by decide)) }
  else if 0x30 ≤ n ∧ n < 0x34 then { p with guard := p.guard.set ((n - 0x30) % 4) x (Nat.mod_lt _ (by decide)) }
  else if 0x38 ≤ n ∧ n < 0x3a then
    { p with watch := p.watch.set ((n - 0x38) % 2) (x &&& 0xfc0fffffffffffff) (Nat.mod_lt _ (by decide)) }
  else if 0x100 ≤ n ∧ n < 0x180 then
    let k := (n - 0x100) / 4 % 32
    { p with td := p.td.set k (setWord256 (p.td.get (Fin.ofNat 32 k)) (n % 4) (x &&& BitVec.ofNat 64 (tdWordMask (n % 4)))) (Nat.mod_lt _ (by decide)) }
  else p

/-! ### ACFG (R81) and the tiles that an operation targets (spec/09_matrix_ops.md R217) -/

def acfgRows (x : W64) : Nat := bitsOf x.toNat 6 0
def acfgCols (x : W64) : Nat := bitsOf x.toNat 13 7
def acfgType (x : W64) : Nat := bitsOf x.toNat 17 14
def acfgOn (x : W64) : Bool := x.getLsbD 63
def acfgDirty (x : W64) : Bool := x.getLsbD 62
def Core.acfg (c : Core) (n : Nat) : W64 := c.sp.acfg.get (Fin.ofNat 16 n)

/-- The tile of a multiply and its finish stitch (R217, R223). -/
def MxMul.tile (m : MxMul) : Nat := bitsOf m.ctl.toNat 13 10
def MxMul.finish (m : MxMul) : Nat := m.trig + m.steps + 7
/-- The finish stitch of a tile load or store (R217). -/
def MxMove.finish (m : MxMove) : Nat := if m.load then m.trig + m.rows + 3 else m.trig + m.m * m.rows + 1

/-- The finish stitch of the operation that targets tile `n` in stitch `t` (R217). -/
def MxEng.targeted (e : MxEng) (n t : Nat) : Option Nat :=
  match e.muls.find? (fun m => m.tile == n && decide (m.trig ≤ t) && decide (t < m.finish)) with
  | some m => some m.finish
  | none => match e.moves.find? (fun m => m.tile == n && decide (m.trig ≤ t) && decide (t < m.finish)) with
    | some m => some m.finish
    | none => none

/-- The detail words of a fault raised at the issue of an mx operation or of a write to ACFG (R300, R315). -/
def mxFault (code : Nat) (c : Core) (t dst ctl tile check idx : Nat) : FaultInfo :=
  let f := c.mx.targeted tile t
  { code := code, dst := dst, baddr := c.cur, w5 := ctl, w6 := (c.acfg tile).toNat,
    w7 := (match f with | some x => 2 ^ 63 + x % 2 ^ 48 | none => 0) + tile * 2 ^ 48 + idx * 2 ^ 57 + check * 2 ^ 52 }

/-- Does a value break the ranges of R81 for a configured tile? -/
def acfgBad (x : W64) : Bool :=
  acfgOn x && (acfgRows x == 0 || decide (64 < acfgRows x) || acfgCols x == 0 || decide (64 < acfgCols x) || decide (1 < acfgType x))

/-- cr.rd and cr.wr with an assigned number (R183): a read lands at t + 1, a write takes effect at t + 1. -/
def startCr (o : CrOp) (s : State) : State :=
  let c := s.fc
  let t := s.sc
  let b := c.o1 .cr
  let n := b % 2 ^ 12
  match o with
  | .rd =>
    match crRead s.fr s.focus.core c n with
    | some x => s.setFc ((c.occupy .cr t 1).landLatch .cr false t 1 x 0)
    | none => s
  | .wr =>
    let x : W64 := BitVec.ofNat 64 (c.o0 .cr)
    let tile := n - 0x20
    let isA := decide (0x20 ≤ n) && decide (n < 0x30)
    if isA && acfgBad x then s.raiseHere (mxFault 0x24 c t 0x589 b tile 0 0)
    else if isA && (c.mx.targeted tile t).isSome then s.raiseHere (mxFault 0x13 c t 0x589 b tile 0 0)
    else s.setFc ((c.occupy .cr t 1).land { due := t + 1, trig := t, tgt := .special n x false })

/-! ## tg (spec/05_memory.md R127, R128; R192) -/

def tagValid (e : BitVec 128) : Bool := e.getLsbD 127
def tagKey (e : BitVec 128) : Nat := bitsOf e.toNat 115 64
def tagData (e : BitVec 128) : Nat := bitsOf e.toNat 63 0
/-- The lowest slot whose entry is valid with the key (R128). -/
def tagLook (m : Map (BitVec 128)) (k : Nat) : Option Nat := (m.find? (fun p => tagValid p.2 && tagKey p.2 == k)).map (fun p => p.1)

/-- The tag operations of R192. -/
def startTg (o : TgOp) (s : State) : State :=
  let c := s.fc
  let t := s.sc
  let a := c.o0 .tg
  let b := c.o1 .tg
  let k := c.o2 .tg
  let c1 := c.occupy .tg t 1
  s.setFc (match o with
    | .look => c1.landLatch .tg false t 3 ((tagLook c.tags (b % 2 ^ 52)).getD (2 ^ 64 - 1)) 0
    | .read => c1.landLatch .tg false t 3 (tagData (mgetD c.tags (b % 256) 0)) 0
    | .set => c1.land { due := t + 1, trig := t, tgt := .tagSet (b % 256) (BitVec.ofNat 128 (2 ^ 127 + k % 2 ^ 52 * 2 ^ 64 + a)) }
    | .inv => c1.land { due := t + 1, trig := t, tgt := .tagInv (b % 256) })

/-! ## ls (R184 to R191) -/

/-- The bytes of a load or store (R185, R186). -/
def lsSize (o : LsOp) (m : BitVec 3) : Nat :=
  match o with
  | .ld8 | .ld8u | .st8 => 1
  | .ld16 | .ld16u | .st16 => 2
  | .ld32 | .ld32u | .st32 => 4
  | .ld64 | .st64 => 8
  | .ld256 | .st256 => 256
  | .afadd | .afmin | .afmax => 4
  | _ => if m.getLsbD 1 then 8 else 4

/-- The bank ALU operation of an ls atomic (R189). -/
def lsAtomic (o : LsOp) : Option AOp :=
  match o with
  | .aadd => some .add | .aand => some .and | .aor => some .or | .axor => some .xor | .amin => some .min | .amax => some .max
  | .aminu => some .minu | .amaxu => some .maxu | .axchg => some .xchg | .acas => some .cas
  | .afadd => some .fadd | .afmin => some .fmin | .afmax => some .fmax
  | _ => none

/-- The new value that a bank ALU writes, in `n` bytes, and the flags it raises; none writes nothing (R189, R247). -/
def atomNew (o : AOp) (n old v cmp : Nat) : Option Nat × Flags :=
  let w := 8 * n
  match o with
  | .add => (some ((old + v) % 2 ^ w), 0)
  | .and => (some (old &&& v), 0)
  | .or => (some (old ||| v), 0)
  | .xor => (some (old ^^^ v), 0)
  | .min => (some (if sval w v < sval w old then v else old), 0)
  | .max => (some (if sval w old < sval w v then v else old), 0)
  | .minu => (some (min old v), 0)
  | .maxu => (some (max old v), 0)
  | .xchg => (some v, 0)
  | .cas => (if old = cmp then some v else none, 0)
  | .fadd => let r := fAdd .fp32 .rne (FFmt.fp32.unpack old) (FFmt.fp32.unpack v); (some r.val, r.fl)
  | .fmin => let r := fMinMax .fp32 false old v; (some r.val, r.fl)
  | .fmax => let r := fMinMax .fp32 true old v; (some r.val, r.fl)

/-- What the slot of an ls operation does (R185 to R189), from its operands at t. -/
def lsKind (o : LsOp) (n : Nat) (c : Core) (x : Trig) : BankKind :=
  let data := (c.unit .ls).o0
  match lsAtomic o with
  | some op => .atomRd op (BitVec.ofNat 64 (data.toNat % 2 ^ (8 * n))) (BitVec.ofNat 64 (c.o2 .ls % 2 ^ (8 * n)))
  | none =>
    match o with
    | .st8 | .st16 | .st32 | .st64 => .store data (BitVec.allOnes 64)
    | .st256 =>
      if x.z then .store (data &&& BitVec.ofNat 2048 (groupBits x.gm)) (BitVec.allOnes 64) else .store data x.gm
    | .ld8 | .ld16 | .ld32 => .load true
    | _ => .load false

/-- A load, store or atomic: the checks of R119 at t, then the pointer update of R120 and the bank-access record due at t + 1 (R73). -/
def startLs (o : LsOp) (x : Trig) (s : State) : State :=
  let c := s.fc
  let t := s.sc
  let n := lsSize o x.m
  let b := c.o1 .ls
  let a := match x.ptr with | some _ => b % 2 ^ 21 | none => b
  match scrCheck a n n with
  | some code => s.raiseHere { code := code, dst := Op.dst (.ls o), baddr := c.cur, w5 := a, w6 := n }
  | none =>
    let c1 := c.occupy .ls t 1
    let c2 := match x.ptr with | some p => c1.queueW (.p p (ptrNext (BitVec.ofNat 64 b))) | none => c1
    s.setFc { c2 with banks := c2.banks ++ [{ due := t + 1, trig := t, dst := Op.dst (.ls o), addr := a, size := n, kind := lsKind o n c x, mod := x.m }] }

end Sys2Proof.Machine
end

