-- ==== Sys2Proof/Machine/Vector.lean ====
section
/-! DEFINITION. Triggers of vx and vp and the compact ops (spec/08_vector_ops.md R193 to R212; spec/06_encoding.md R148): the lane results of
Lanes.lean become landing records. -/
namespace Sys2Proof.Machine

/-- The landing records of a vector result on a unit's latches (R195, R214). -/
def Core.landVec (c : Core) (u : UnitId) (t l : Nat) (r : VRes) : Core :=
  let c1 := c.land { due := t + l, trig := t, tgt := .latch u false (BitVec.ofNat 2048 r.r) (BitVec.ofNat 2048 r.keep), fl := r.fl }
  match r.h with | some h => c1.landLatch u true t l h 0 | none => c1

/-- A vx operation (R197 to R202). -/
def startVx (o : VxOp) (x : Trig) (s : State) : State :=
  let c := s.fc
  s.setFc ((c.occupy .vx s.sc (vxOcc o)).landVec .vx s.sc (vxLat o) (vxRun o (c.vin .vx x)))

/-- A vp operation whose operands are legal (R203 to R211). -/
def startVp (o : VpOp) (x : Trig) (s : State) : State :=
  let c := s.fc
  s.setFc ((c.occupy .vp s.sc 1).landVec .vp s.sc (vpLat o) (vpRun o (c.vin .vp x)))

/-- The unit, result, latency and full DST of a compact op (R148), from vd, vs and RMODE. -/
def compactRun (o : Nat) (a b : Nat) (rm : RMode) : VRes :=
  let i : BitVec 3 → VIn := fun m => { a := a, b := b, c := 0, m := m, gm := BitVec.allOnes 64, z := false, rm := rm }
  match o with
  | 0 => vxRun .fadd (i 0) | 1 => vxRun .fsub (i 0) | 2 => vxRun .fmul (i 0) | 3 => vxRun .fmin (i 0) | 4 => vxRun .fmax (i 0)
  | 5 => vxRun .fadd (i 2) | 6 => vxRun .fmul (i 2)
  | 7 => vxRun .add (i 0) | 8 => vxRun .sub (i 0) | 9 => vxRun .max (i 0) | 10 => vxRun .min (i 0)
  | 11 => vxRun .and (i 0) | 12 => vxRun .or (i 0) | 13 => vxRun .xor (i 0) | 14 => vxRun .andn (i 0)
  | _ => vpRun .perm (i 0)
/-- The operation that R148 names for a compact op. -/
def compactOp (o : Nat) : Op :=
  match o with
  | 0 => .vx .fadd | 1 => .vx .fsub | 2 => .vx .fmul | 3 => .vx .fmin | 4 => .vx .fmax | 5 => .vx .fadd | 6 => .vx .fmul
  | 7 => .vx .add | 8 => .vx .sub | 9 => .vx .max | 10 => .vx .min | 11 => .vx .and | 12 => .vx .or | 13 => .vx .xor | 14 => .vx .andn
  | _ => .vp .perm
/-- Its latency (R148). -/
def compactLat (o : Nat) : Nat := if o < 7 then 4 else if o < 15 then 2 else 3

/-- A compact op: its latch landing and its write-back to vd, both at t + L (R88, R148, R212). -/
def startCompact (o : Nat) (vd : Fin 32) (vs : Fin 32) (s : State) : State :=
  let c := s.fc
  let t := s.sc
  let u := (compactOp o).unit
  let r := compactRun o (c.readV vd).toNat (c.readV vs).toNat c.rmode
  let c1 := (c.occupy u t 1).landVec u t (compactLat o) r
  s.setFc (c1.land { due := t + compactLat o, trig := t, tgt := .vback vd (BitVec.ofNat 2048 r.r) (compactOp o).dst c.cur })

end Sys2Proof.Machine
end

