-- ==== Sys2Proof/Machine/Matrix.lean ====
section
/-! DEFINITION. The matrix engine (spec/09_matrix_ops.md): the checks and triggers of the mx operations, the steps of a multiply, and the rows of
a tile load or store. Their bank slots are served in Slots.lean. -/
namespace Sys2Proof.Machine

/-! ## Tiles (R215, R216) -/

/-- Element (i, j) of tile `n`. -/
def Core.tileAt (c : Core) (n i j : Nat) : BitVec 32 := mgetD c.tiles (4096 * n + 64 * i + j) 0
/-- Write words of tile `n`, keyed 64 * i + j, and set its DIRTY bit (R216). -/
def Core.tileWrite (c : Core) (n : Nat) (words : Map (BitVec 32)) : Core :=
  let k := n % 16
  { c.unmark (fun q => words.any (fun p => tileKey k p.1 == q)) with
    tiles := mmerge c.tiles (words.map (fun p => (4096 * k + p.1, p.2)))
    sp := { c.sp with acfg := c.sp.acfg.set k (c.sp.acfg.get (Fin.ofNat 16 k) ||| 0x4000000000000000) (Nat.mod_lt _ (by decide)) } }

/-! ## The multiply (R223 to R230) -/

/-- The kinds of operand of R223: 16-bit floats, 8-bit floats, 8-bit integers, B4. -/
inductive MxPair where
  | f16 (F : FFmt) | f8 (A B : FFmt) | i8 (A B : IFmt) | b4
deriving DecidableEq, Repr

/-- The format pairs of R223. -/
def mxPair (a b : Nat) : Option MxPair :=
  match Fmt.ofCode a, Fmt.ofCode b with
  | some (.f .bf16), some (.f .bf16) => some (.f16 .bf16)
  | some (.f .fp16), some (.f .fp16) => some (.f16 .fp16)
  | some (.f x), some (.f y) =>
    if (x = .e4m3 || x = .e5m2) && (y = .e4m3 || y = .e5m2) then some (.f8 x y) else none
  | some (.i x), some (.i y) => if (x = .i8 || x = .u8) && (y = .i8 || y = .u8) then some (.i8 x y) else none
  | some .b4, some .b4 => some .b4
  | _, _ => none

/-- r of R223: the elements that 2 bytes hold. -/
def MxPair.r : MxPair → Nat | .f16 _ => 1 | .f8 _ _ => 2 | .i8 _ _ => 2 | .b4 => 4
/-- The tile ETYPE of R223. -/
def MxPair.etype : MxPair → Nat | .i8 _ _ => 1 | _ => 0
def MxPair.isB4 : MxPair → Bool | .b4 => true | _ => false

def MxMul.pair (m : MxMul) : Option MxPair := mxPair (tdFmt m.a) (tdFmt m.b)
def MxMul.r (m : MxMul) : Nat := match m.pair with | some p => p.r | none => 1
def MxMul.acc (m : MxMul) : Bool := m.ctl.getLsbD 14

/-- The K rules of R224. -/
def mxKBad (sparse : Bool) (p : MxPair) (a b : BitVec 256) : Bool :=
  if sparse then tdCols b != 2 * tdCols a || tdCols b % (if p.isB4 then 64 else 4) != 0
  else tdCols a != tdCols b || tdCols a % (if p.isB4 then 32 else p.r) != 0

/-- The alignment that a multiply needs of a BASE (R225). -/
def mxAlign (sparse isB : Bool) : Nat := if sparse && isB then 4 else 2
/-- Check `k` of the DESCRIPTOR checks of R225 for TDA (`false`) or TDB (`true`). DEDUCED (log entry 51): the checks of spec/03_core.md R84 come first, so a
misaligned BASE or MBASE is check 4, and checks 9 and 11 find no more than a misaligned RSTRIDE. -/
def mxDescBad (sparse : Bool) (a b : BitVec 256) (k : Nat) (isB : Bool) : Bool :=
  let t := if isB then b else a
  let b4 := tdFmt t == 9
  match k with
  | 6 => tdSpace t != 0
  | 7 => !isB && (mxPair (tdFmt a) (tdFmt b)).isNone
  | 8 => decide (64 < tdRows t) || (isB && (match mxPair (tdFmt a) (tdFmt b) with | some p => mxKBad sparse p a b | none => false))
  | 9 => let al := mxAlign sparse isB; tdBase t % al != 0 || tdStride t % al != 0
  | 10 => b4 && tdStride t % 16 != 0
  | 11 => sparse && !isB && tdMbase t % 32 != 0
  | k => tdFails t b4 (sparse && !isB) (mxAlign sparse isB) k

/-- The first failing DESCRIPTOR check: each check for TDA and then TDB (R225). DESIGN CHOICE (log entry 24): the checks on the pair, check 7 and a K
rule of check 8, name TDA, for the rule does not say which index the record of such a check carries. -/
def mxDescCheck (sparse : Bool) (a b : BitVec 256) (ia ib : Nat) : Option (Nat × Nat) :=
  match (List.range 22).find? (fun n => mxDescBad sparse a b (n / 2 + 1) (n % 2 == 1)) with
  | some n => some (n / 2 + 1, if n % 2 = 1 && !(n = 15 && decide (tdRows b ≤ 64)) then ib else ia)
  | none => none

/-- A contiguous or strided stream: `n` rows of `len` bytes, `stride` apart, mapped and in the bank of its first byte (R225 check 3). -/
def streamIn (base stride n len : Nat) : Bool :=
  (List.range n).all (fun i => scrIn (base + i * stride) len && bankOf (base + i * stride) == bankOf base)

/-- The bytes of B that a step reads from a lane (R218). -/
def MxMul.bBytes (m : MxMul) : Nat := if m.sparse then 4 else 2
/-- The bytes of one metadata fetch (R226). -/
def MxMul.metaLen (m : MxMul) : Nat := if m.r = 1 then 128 else 256
/-- The number of metadata fetches: those with bytes of steps up to S (R220, R226). -/
def MxMul.metaCount (m : MxMul) : Nat := if m.sparse then ceilDiv (16 * tdCols m.a) m.metaLen else 0
def MxMul.isB4 (m : MxMul) : Bool := tdFmt m.a == 9

/-- The BOUNDS check of R225 over every stream. -/
def MxMul.inBounds (m : MxMul) : Bool :=
  streamIn (tdBase m.a) (tdStride m.a) (tdRows m.a) (2 * m.steps) &&
  streamIn (tdBase m.b) (tdStride m.b) (tdRows m.b) (m.bBytes * m.steps) &&
  (!m.isB4 || (streamIn (tdSbase m.a) (tdStride m.a / 16) (tdRows m.a) (tdCols m.a / 32) &&
    streamIn (tdSbase m.b) (tdStride m.b / 16) (tdRows m.b) (tdCols m.b / 32))) &&
  (!m.sparse || scrIn (tdMbase m.a) (m.metaCount * m.metaLen))

/-- The banks of the side fetches, and the BANK_CONFLICT check of R225. -/
def MxMul.bankClash (m : MxMul) : Bool :=
  let ba := bankOf (tdBase m.a)
  let bb := bankOf (tdBase m.b)
  let side := (if m.isB4 then [bankOf (tdSbase m.a), bankOf (tdSbase m.b)] else []) ++ (if m.sparse then [bankOf (tdMbase m.a)] else [])
  ba == bb || side.any (fun x => x != 3 - ba - bb)

/-- Does the tile fit the multiply (R225 check 2)? -/
def MxMul.tileBad (m : MxMul) (x : W64) : Bool :=
  !acfgOn x || (match m.pair with | some p => acfgType x != p.etype | none => true) || acfgRows x != tdRows m.a || acfgCols x != tdRows m.b

/-- The array is busy for S stitches from a multiply's trigger (R222): the multiply that occupies it. -/
def MxEng.array (e : MxEng) (t : Nat) : Option MxMul := e.muls.find? (fun m => decide (m.trig ≤ t) && decide (t < m.trig + m.steps))

/-- The step whose slices are read in stitch `s` (R227). -/
def MxMul.readStep (m : MxMul) (s : Nat) : Option Nat := let k := s - m.trig - 1; if m.trig + 2 ≤ s ∧ k ≤ m.steps then some k else none
/-- The step that becomes visible in stitch `s` (R227). -/
def MxMul.landStep (m : MxMul) (s : Nat) : Option Nat := let k := s - m.trig - 7; if m.trig + 8 ≤ s ∧ k ≤ m.steps then some k else none

/-- The addresses of the bytes of a slice: `w` bytes of each lane for step `k` (R218). -/
def sliceAddrs (t : BitVec 256) (w k : Nat) : List Nat :=
  (List.range (tdRows t)).flatMap (fun l => (List.range w).map (fun q => tdBase t + l * tdStride t + w * (k - 1) + q))

/-- The addresses of the scale bytes of block `j` (R219). -/
def scaleAddrs (t : BitVec 256) (j : Nat) : List Nat := (List.range (tdRows t)).map (fun l => tdSbase t + l * (tdStride t / 16) + j)

/-- The side fetch of stitch `s`: its key and addresses (R226). Metadata fetch n has key n, A scale block j key 4096 + j, B scale block j key
8192 + j. -/
def MxMul.sideFetch (m : MxMul) (s : Nat) : Option (Nat × List Nat) :=
  let u := s - m.trig
  let w := u / 8
  let md := fun n => some (n, (List.range m.metaLen).map (fun q => tdMbase m.a + m.metaLen * n + q))
  let sa := fun j => some (4096 + j, scaleAddrs m.a j)
  let sb := fun j => some (8192 + j, scaleAddrs m.b j)
  if s < m.trig || m.steps ≤ 8 * w then none
  else match m.sparse, m.isB4, u % 8 with
    | false, true, 0 => sa w
    | false, true, 1 => sb w
    | true, false, 0 => md w
    | true, true, 0 => md (2 * w)
    | true, true, 1 => md (2 * w + 1)
    | true, true, 2 => sa w
    | true, true, 3 => sb (2 * w)
    | true, true, 4 => sb (2 * w + 1)
    | _, _, _ => none

/-- The bank of the side fetch of stitch `s` (R226). -/
def MxMul.sideBank (m : MxMul) (s : Nat) : Option Nat := (m.sideFetch s).map (fun q => bankOf (q.2.headD 0))

/-- `mx.mma` and `mx.mmas` (R223 to R227): the checks of R225, then an unfinished multiply of S steps. Its first side fetch is in this
stitch, and contests a row that a tile store writes in that bank, so the row's flags are not set (R118, R232). -/
def startMul (sparse : Bool) (o : MxOp) (s : State) : State :=
  let c := s.fc
  let t := s.sc
  let ctl := c.o1 .mx
  let ia := ctl % 32
  let ib := ctl / 32 % 32
  let a := c.sp.td.get (Fin.ofNat 32 ia)
  let b := c.sp.td.get (Fin.ofNat 32 ib)
  let r := match mxPair (tdFmt a) (tdFmt b) with | some p => p.r | none => 1
  let m : MxMul := { trig := t, baddr := c.cur, sparse := sparse, ctl := BitVec.ofNat 64 ctl, a := a, b := b, steps := tdCols a / r }
  let fail := fun code check idx => s.raiseHere (mxFault code c t (Op.dst (.mx o)) ctl m.tile check idx)
  match mxDescCheck sparse a b ia ib with
  | some (k, i) => fail 0x25 k i
  | none =>
    if m.tileBad (c.acfg m.tile) then fail 0x24 0 0
    else if !m.inBounds then fail 0x21 0 0
    else if m.bankClash then fail 0x11 0 0
    else if (c.mx.targeted m.tile t).isSome then fail 0x13 0 0
    else
      let c := c.occupy .mx t 1
      let side := m.sideBank t
      s.setFc { c with mx := { c.mx with
        muls := c.mx.muls ++ [m], opens := c.mx.opens ++ [m.finish], rowFl := c.mx.rowFl.filter (fun q => some q.1 != side) } }

/-- Bits [8n+...] of a byte list as an element of `w` bits at bit `b`. -/
def bitsAt (l : List Byte) (b w : Nat) : Nat := (ofBytes ((l.drop (b / 8)).take (w / 8 + 1)) >>> (b % 8)) % 2 ^ w

/-- Element `e` of a lane: `per` elements of `16 / r` bits are read from the lane in each step, the lane's bytes of a slice being `w`. -/
def elemBits (sl : Map (List Byte)) (r per w lane e : Nat) : Option Nat :=
  (mget sl (e / per + 1)).map (fun b => bitsAt b (8 * w * lane + 16 / r * (e % per)) (16 / r))

/-- The value of an element (R103, R112, R219). -/
def elemVal (f : Nat) (sides : Map (List Byte)) (key lane e x : Nat) : FV :=
  match Fmt.ofCode f with
  | some (.f F) => F.unpack x
  | some (.i I) => let v := I.value x; .fin (v < 0) v.natAbs 0
  | some .b4 => b4Value ((mgetD sides (key + e / 32) []).getD lane 0).toNat x
  | none => .nan false

/-- The pairs of element indices (A stored, B dense) that step `k` multiplies for row `i` (R228, R229). -/
def MxMul.pairs (m : MxMul) (k i : Nat) : List (Nat × Nat) :=
  let r := m.r
  if !m.sparse then (List.range r).map (fun q => (r * (k - 1) + q, r * (k - 1) + q))
  else
    let groups := if r = 1 then (if k % 2 = 0 then [k / 2 - 1] else []) else if r = 2 then [k - 1] else [2 * k - 2, 2 * k - 1]
    groups.flatMap (fun G =>
      let md := bitsAt (((mgetD m.sides (32 * G / m.metaLen) []).drop (32 * G % m.metaLen)).take 32) (4 * i) 4
      [(2 * G, 4 * G + md % 4), (2 * G + 1, 4 * G + md / 4)])

/-- The side fetches that step `k` uses: the scale blocks of its elements and the metadata of its groups (R219, R220). -/
def MxMul.sideKeys (m : MxMul) (k : Nat) : List Nat :=
  let groups := if !m.sparse then [] else if m.r = 1 then (if k % 2 = 0 then [k / 2 - 1] else []) else if m.r = 2 then [k - 1] else [2 * k - 2, 2 * k - 1]
  (if m.isB4 then [4096 + m.r * (k - 1) / 32, 8192 + (if m.sparse then 2 else 1) * m.r * (k - 1) / 32] else []) ++
    groups.map (fun g => 32 * g / m.metaLen)

/-- Has step `k` everything it reads (R227, R230)? A voided slice or side fetch leaves the step without effect, and so does a void odd step the even
step after it, in a sparse multiply of 16-bit formats, which multiplies the slices of both (R229; log entry 22). -/
def MxMul.ready (m : MxMul) (k : Nat) : Bool :=
  let need := if m.sparse && m.r == 1 && k % 2 == 0 then [k - 1, k] else [k]
  need.all (fun j => (mget m.slices j).isSome) && (m.sideKeys k).all (fun j => (mget m.sides j).isSome) && need.all (fun j => !m.bad.contains j)

/-- Is step `k` the first of a multiply with ACC = 0 that takes effect? It starts from zero, for the tile's earlier content takes no part (R227),
whichever steps before it were voided. -/
def MxMul.starts (m : MxMul) (k : Nat) : Bool := !m.acc && (List.range (k - 1)).all (fun i => !m.ready (i + 1))
/-- The poisoned value that step `k` uses of its tile, or of the multiply itself (spec/16_faults_recovery.md R358 classes 3 and 0): the tile's earlier
content where the step adds onto it. -/
def Core.mulMark (c : Core) (m : MxMul) (k : Nat) : Option (Nat × Poison) :=
  if c.regP.isEmpty || !m.ready k then none
  else (c.firstMark [recKey .mx m.trig]).orElse (fun _ => if m.starts k then none
    else c.regP.find? (fun q => decide (tileKey m.tile 0 ≤ q.1) && decide (q.1 < tileKey m.tile (64 * tdRows m.a)) && decide (q.1 % 64 < tdRows m.b)))
/-- Steps from `k` on take no effect. -/
def MxMul.voidFrom (m : MxMul) (k : Nat) : MxMul := { m with bad := m.bad ++ (List.range (m.steps + 1)).filter (fun j => decide (k ≤ j)) }

/-- One step for element (i, j): the new word and the flags (R112, R228). -/
def MxMul.cell (m : MxMul) (sa sb : Map (List Byte)) (k i j : Nat) (c : BitVec 32) : BitVec 32 × Flags :=
  let r := m.r
  let perB := if m.sparse then 2 * r else r
  let prods := (m.pairs k i).map (fun p =>
    fProd (elemVal (tdFmt m.a) m.sides 4096 i p.1 ((elemBits sa r r 2 i p.1).getD 0))
      (elemVal (tdFmt m.b) m.sides 8192 j p.2 ((elemBits sb r perB m.bBytes j p.2).getD 0)))
  match m.pair with
  | some (.i8 _ _) =>
    let sum := prods.foldl (fun acc p => match p.1 with | .fin n x _ => acc + signedMul n x | _ => acc) (0 : Int)
    (BitVec.ofInt 32 (c.toInt + sum), 0)
  | _ =>
    if prods.isEmpty then (c, 0)
    else
      let ex := prods.foldl (fun (acc : ExSum) p => acc.add p.1) (ExSum.zero.add (FFmt.fp32.unpack c.toNat))
      (BitVec.ofNat 32 ex.round.val, ex.round.fl)

/-- A step becomes visible: every element of the tile's shape and the flags (R227). -/
def Core.mulLand (c : Core) (m : MxMul) (k : Nat) : Core :=
  if !m.ready k then c
  else
    let sa := m.slices.map (fun p => (p.1, p.2.1))
    let sb := m.slices.map (fun p => (p.1, p.2.2))
    let cells := (List.range (tdRows m.a)).flatMap (fun i => (List.range (tdRows m.b)).map (fun j =>
      let old := if m.starts k then 0 else c.tileAt m.tile i j
      (64 * i + j, m.cell sa sb k i j old)))
    (c.tileWrite m.tile (cells.map (fun p => (p.1, p.2.1)))).setFlags (cells.foldl (fun f p => f ||| p.2.2) 0)

/-! ## Row, column and zero moves (R231) -/

/-- rrow, rcol, wrow, wcol and zero. -/
def startTile (o : MxOp) (s : State) : State :=
  let c := s.fc
  let t := s.sc
  let ctl := c.o1 .mx
  let n := ctl % 16
  let ix := ctl / 16 % 64
  let x := c.acfg n
  let rows := acfgRows x
  let cols := acfgCols x
  let badIx := match o with | .rrow | .wrow => decide (rows ≤ ix) | .rcol | .wcol => decide (cols ≤ ix) | _ => false
  let fail := fun code => s.raiseHere (mxFault code c t (Op.dst (.mx o)) ctl n 0 0)
  if !acfgOn x || badIx then fail 0x24
  else if (c.mx.targeted n t).isSome then fail 0x13
  else
    let c1 := c.occupy .mx t 1
    let vreg := (c.readV (Fin.ofNat 32 (ctl / 1024 % 32))).toNat
    let put := fun sel (w : Map (BitVec 32)) => c1.land { due := t + 2, trig := t, tgt := .tile n sel w }
    s.setFc (match o with
      | .rrow => c1.landLatch .mx false t 3 (pack 32 ((List.range cols).map (fun j => (c.tileAt n ix j).toNat))) 0
      | .rcol => c1.landLatch .mx false t 3 (pack 32 ((List.range rows).map (fun i => (c.tileAt n i ix).toNat))) 0
      | .wrow => put (16 * ix) ((List.range cols).map (fun j => (64 * ix + j, BitVec.ofNat 32 (lane vreg 32 j))))
      | .wcol => put (16 * ix + 1024) ((List.range rows).map (fun i => (64 * i + ix, BitVec.ofNat 32 (lane vreg 32 i))))
      | _ => put 2048 ((List.range rows).flatMap (fun i => (List.range cols).map (fun j => (64 * i + j, 0)))))

/-! ## Tile load and store (R232) -/

/-- Does the descriptor's format fit the tile's type (R232)? -/
def mxMoveFmtBad (load : Bool) (fmt etype : Nat) : Bool :=
  match Fmt.ofCode fmt with
  | some (.f _) => etype != 0
  | some (.i I) => etype != 1 || (load && I = .i64)
  | _ => true

/-- The element size of a tile load or store in bytes. -/
def MxMove.elem (m : MxMove) : Nat := tdElem m.td
/-- The bytes of a row (R232). -/
def MxMove.rowBytes (m : MxMove) : Nat := m.cols * m.elem

/-- mx.load and mx.store: the checks of R232, then an unfinished move of ROWS rows. DEDUCED (log entry 51): the checks of spec/03_core.md R84 come first,
so a BASE that is not a multiple of the element size is DESCRIPTOR check 4, as an RSTRIDE is check 3, and the ALIGN of R232 finds nothing more. -/
def startMove (load : Bool) (o : MxOp) (s : State) : State :=
  let c := s.fc
  let t := s.sc
  let ctl := c.o1 .mx
  let tdi := ctl % 32
  let n := ctl / 1024 % 16
  let td := c.sp.td.get (Fin.ofNat 32 tdi)
  let x := c.acfg n
  let rows := acfgRows x
  let cols := acfgCols x
  let m2 := if !load && decide (256 < cols * tdElem td) then 2 else 1
  let mv : MxMove :=
    { trig := t, baddr := c.cur, load := load, ctl := BitVec.ofNat 64 ctl, td := td, tile := n, rows := rows, cols := cols, m := m2, rm := c.rmode }
  let fail := fun code check => s.raiseHere (mxFault code c t (Op.dst (.mx o)) ctl n check (if check = 0 then 0 else tdi))
  let desc := match tdCheck td false false (tdElem td) with
    | some k => some k
    | none =>
      if tdSpace td ≠ 0 then some 6
      else if mxMoveFmtBad load (tdFmt td) (acfgType x) then some 7
      else if tdRows td ≠ rows ∨ tdCols td ≠ cols then some 8 else none
  match desc with
  | some k => fail 0x25 k
  | none =>
    if !acfgOn x then fail 0x24 0
    else if (List.range rows).any (fun i => !scrIn (tdBase td + i * tdStride td) mv.rowBytes) then fail 0x21 0
    else if tdBase td % mv.elem ≠ 0 ∨ tdStride td % mv.elem ≠ 0 then fail 0x20 0
    else if (c.mx.targeted n t).isSome then fail 0x13 0
    else
      let c1 := c.occupy .mx t (m2 * rows)
      s.setFc { c1 with mx := { c1.mx with moves := c1.mx.moves ++ [mv], opens := c1.mx.opens ++ [mv.finish] } }

/-- The row and part whose slot falls in stitch `s` (R232). -/
def MxMove.slotAt (m : MxMove) (s : Nat) : Option (Nat × Nat) :=
  let q := s - m.trig - 1
  if m.trig < s ∧ q < m.m * m.rows then some (q / m.m, q % m.m) else none

/-- The address of a row. -/
def MxMove.rowAddr (m : MxMove) (i : Nat) : Nat := tdBase m.td + i * tdStride m.td

/-- The words of a loaded row, with the flags of its conversions (R232). -/
def MxMove.loadRow (m : MxMove) (i : Nat) (bytes : List Byte) : Map (BitVec 32) × Flags :=
  let w := 8 * m.elem
  let rs := (List.range m.cols).map (fun j =>
    let x := bitsAt bytes (w * j) w
    match Fmt.ofCode (tdFmt m.td) with
    | some (.f F) => cvtFF F .fp32 .rne true x
    | some (.i I) => ⟨wrapTo 32 (I.value x), 0⟩
    | _ => ⟨0, 0⟩)
  (((List.range m.cols).zip rs).map (fun p => (64 * i + p.1, BitVec.ofNat 32 p.2.val)), rs.foldl (fun f r => f ||| r.fl) 0)

/-- The bytes of a stored row, with the flags of its conversions (R232). -/
def MxMove.storeRow (m : MxMove) (c : Core) (i : Nat) : List Byte × Flags :=
  let rs := (List.range m.cols).map (fun j =>
    let x := (c.tileAt m.tile i j).toNat
    match Fmt.ofCode (tdFmt m.td) with
    | some (.f F) => cvtFF .fp32 F m.rm true x
    | some (.i I) => cvtII .i32 I true x
    | _ => ⟨0, 0⟩)
  (rs.flatMap (fun r => toBytes m.elem r.val), rs.foldl (fun f r => f ||| r.fl) 0)

/-- The first poisoned element of row `i` of a stored tile (spec/16_faults_recovery.md R358 class 3). -/
def MxMove.rowMark (m : MxMove) (c : Core) (i : Nat) : Option (Nat × Poison) :=
  if c.regP.isEmpty then none else c.firstMark (recKey .mx m.trig :: (List.range m.cols).map (fun j => tileKey m.tile (64 * i + j)))

/-! ## Groups and status (R233, R234) -/

/-- Close the open finishes into group `g`: its completion stitch is the latest of its own and theirs (R233, R249). -/
def closeGroup (grp : Vector Nat 8) (opens : List Nat) (g : Nat) : Vector Nat 8 :=
  grp.set (g % 8) (opens.foldl max (grp.get (Fin.ofNat 8 g))) (Nat.mod_lt _ (by decide))

/-- The engine state of R234. -/
def mxStatus (c : Core) (t : Nat) : Nat :=
  let bits := fun n (p : Nat → Bool) => pack 1 ((List.range n).map (fun i => if p i then 1 else 0))
  bits 16 (fun n => acfgOn (c.acfg n)) * 2 ^ 48 + bits 16 (fun n => acfgDirty (c.acfg n)) * 2 ^ 32 +
    (if (c.mx.array t).isSome then 2 ^ 24 else 0) + bits 8 (fun g => decide (c.mx.grp.get (Fin.ofNat 8 g) ≤ t)) * 2 ^ 16 +
    bits 16 (fun n => (c.mx.targeted n t).isSome)

/-- Every mx operation. DESIGN CHOICE (log entry 24): R300 gives every issue fault of mx its words 5 to 7, and R354 gives other words to SLIP kind 0 and to
BOUNDS, ALIGN and BANK_CONFLICT: mx.wait's SLIP has R354's words, and the faults of the checks of an mx operation have R300's. -/
def startMx (o : MxOp) (s : State) : State :=
  let c := s.fc
  let t := s.sc
  let g := c.o1 .mx % 8
  match o with
  | .mma => startMul false o s
  | .mmas => startMul true o s
  | .zero | .rrow | .rcol | .wrow | .wcol => startTile o s
  | .load => startMove true o s
  | .store => startMove false o s
  | .commit => let c := c.occupy .mx t 1; s.setFc { c with mx := { c.mx with grp := closeGroup c.mx.grp c.mx.opens g, opens := [] } }
  | .wait =>
    let done := c.mx.grp.get (Fin.ofNat 8 g)
    if t < done then s.raiseHere { code := 0x10, dst := Op.dst (.mx o), baddr := c.cur, w5 := 0, w6 := done, w7 := t }
    else s.setFc (c.occupy .mx t 1)
  | .status => s.setFc ((c.occupy .mx t 1).landLatch .mx false t 3 (mxStatus c t) 0)

end Sys2Proof.Machine
end

