-- ==== Sys2Proof/Machine/Far.lean ====
section
/-! DEFINITION. Far memory: page entries (spec/14_system_state.md R319 to R321), the translation cache (R322), protected pages and their code
(R325, R326; spec/16_faults_recovery.md R372 to R374, R401), the loss of H-dies (R371), and the journal's held writes (spec/10 R260). -/
namespace Sys2Proof.Machine

/-! ## Page entries (R319, R320) -/

def leafType (l : BitVec 64) : Nat := bitsOf l.toNat 1 0
def leafSize (l : BitVec 64) : Nat := bitsOf l.toNat 48 43
def leafProt (l : BitVec 64) : Bool := l.getLsbD 42
def leafW (l : BitVec 64) : Bool := l.getLsbD 41
def leafOwn (l : BitVec 64) : Nat := bitsOf l.toNat 63 59
def leafHb (l : BitVec 64) : Nat := bitsOf l.toNat 58 54
def leafHc (l : BitVec 64) : Nat := bitsOf l.toNat 53 49
/-- The offset of the page on each of its H-dies. -/
def leafOfs (l : BitVec 64) : Nat := bitsOf l.toNat 36 16 * 2 ^ 16

/-- The stripes of group `g` of a protected page, D0 to D3, P, Q: logical H-die and offset of byte 0 (R325). -/
def stripes (l : BitVec 64) (g : Nat) : List (Nat × Nat) :=
  let o := leafOfs l + 512 * g
  [(leafOwn l, o), (leafOwn l, o + 256), (leafHb l, o), (leafHc l, o), (leafHb l, o + 256), (leafHc l, o + 256)]

/-- The place of byte `v` of a page: logical H-die and offset (R320, R325). -/
def leafLoc (l : BitVec 64) (v : Nat) : Nat × Nat :=
  if leafProt l then
    let p := (stripes l (v / 1024)).getD (v % 1024 / 256) (0, 0)
    (p.1, p.2 + v % 256)
  else (leafOwn l, leafOfs l + v)

/-- The H-dies of a page (R319). -/
def leafDies (l : BitVec 64) : List Nat := if leafProt l then [leafOwn l, leafHb l, leafHc l] else [leafOwn l]

/-! ## The translation cache (R322) -/

def tceValid (e : BitVec 128) : Bool := e.getLsbD 63
def tceLeaf (e : BitVec 128) : BitVec 64 := (e >>> 64).setWidth 64
def mkTce (va : Nat) (l : BitVec 64) : BitVec 128 := BitVec.ofNat 128 (l.toNat * 2 ^ 64 + 2 ^ 63 + va / 2 ^ 16 % 2 ^ 36)
/-- An entry matches every address of its page. -/
def tceMatch (e : BitVec 128) (va : Nat) : Bool :=
  let z := 2 ^ leafSize (tceLeaf e)
  tceValid e && bitsOf e.toNat 35 0 * 2 ^ 16 / z == va / z
/-- The page entry that the cache holds for an address. -/
def Core.tceLook (c : Core) (va : Nat) : Option (BitVec 64) := (c.tce.find? (fun p => tceMatch p.2 va)).map (fun p => tceLeaf p.2)
/-- A fill: the lowest invalid entry, or the one that the round-robin pointer names, which then advances. -/
def Core.tceFill (c : Core) (va : Nat) (l : BitVec 64) : Core :=
  match (List.range 64).find? (fun k => !tceValid (mgetD c.tce k 0)) with
  | some k => { c with tce := mset c.tce k (mkTce va l) }
  | none => { c with tce := mset c.tce c.rr.toNat (mkTce va l), rr := c.rr + 1 }

/-! ## Runs of a far access -/

/-- The runs of `n` bytes at `va` that lie in one 64 KiB frame with entry `l`, the first at position `pos` of the beat; fuel bounds the pieces. -/
def runsGo (l : BitVec 64) : Nat → Nat → Nat → Nat → List FarRun
  | 0, _, _, _ => []
  | k + 1, va, n, pos =>
    if n = 0 then [] else
      let v := va % 2 ^ leafSize l
      let m := if leafProt l then min n (256 - v % 256) else n
      let p := leafLoc l v
      { h := p.1, off := p.2, len := m, pos := pos, leaf := l, v := v } :: runsGo l k (va + m) (n - m) (pos + m)

/-- The frames of `n` bytes at `va`, each with the part of the bytes in it. -/
def framesGo : Nat → Nat → Nat → List (Nat × Nat)
  | 0, _, _ => []
  | k + 1, va, n => if n = 0 then [] else let m := min n (2 ^ 16 - va % 2 ^ 16); (va, m) :: framesGo k (va + m) (n - m)
def frames (va n : Nat) : List (Nat × Nat) := framesGo (n / 2 ^ 16 + 2) va n

/-- The runs of a beat's spans of far addresses; a frame whose entry is not known has none. -/
def farRuns (leaves : Map (BitVec 64)) (spans : List (Nat × Nat)) : List FarRun :=
  (spans.foldl (fun (acc : Nat × List FarRun) sp =>
    (frames sp.1 sp.2).foldl (fun (acc : Nat × List FarRun) f =>
      match mget leaves (f.1 / 2 ^ 16) with
      | some l => (acc.1 + f.2, acc.2 ++ runsGo l (f.2 / 256 + 2) f.1 f.2 acc.1)
      | none => (acc.1 + f.2, acc.2)) acc) (0, [])).2

/-! ## Physical bytes -/

/-- The key of a byte of a logical H-die in the store of physical H-dies (spec/17_program_recovery.md R377). -/
def State.hKey (s : State) (h off : Nat) : Nat := s.maps.hmap.get (Fin.ofNat 24 h) * 2 ^ 37 + off

/-- The physical H-die that holds a logical one, and whether it is lost. -/
def State.hPhys (s : State) (h : Nat) : Nat := s.maps.hmap.get (Fin.ofNat 24 h)
def State.hGone (s : State) (h : Nat) : Bool := s.hdies.lost.contains (s.hPhys h)
/-- The id of a physical H-die (spec/14_system_state.md R306). -/
def hdieId (p : Nat) : Nat := 4 * 2 ^ 36 + p * 2 ^ 31

/-- Is a byte of a group that lies at this key readable: on a die in service, rebuilt, and not poisoned (R373, R374)? -/
def State.hOk (s : State) (key : Nat) : Bool :=
  let p := key / 2 ^ 37
  !s.hdies.lost.contains p && (mget s.farP key).isNone &&
    (match mget s.hdies.rebuild p with | some k => decide (key % 2 ^ 37 < k) || s.hdies.ahead.contains (key / 512) | none => true)

/-- `gf_mul` of R114 on byte values. -/
def gfN (a b : Nat) : Nat := (gfMul (BitVec.ofNat 8 a) (BitVec.ofNat 8 b)).toNat
/-- The inverse of R372. -/
def gfInv (a : Nat) : Nat := ((List.range 256).find? (fun b => gfN a b == 1)).getD 0

/-- P and Q of four data bytes (R372). -/
def codeP (d : List Nat) : Nat := d.foldl (· ^^^ ·) 0
def codeQ (d : List Nat) : Nat := (List.range 4).foldl (fun a m => a ^^^ gfN (2 ^ m) (d.getD m 0)) 0

/-- Rebuild the four data bytes of a byte position from D0 to D3, P, Q and which of them are readable; none when three or more are lost
(R373). -/
def rebuildData (ok : Nat → Bool) (x : Nat → Nat) : Option (List Nat) :=
  let z := (List.range 4).map (fun m => if ok m then x m else 0)
  match (List.range 4).filter (fun m => !ok m) with
  | [] => some z
  | [m] =>
    if ok 4 then some (z.set m (codeP z ^^^ x 4))
    else if ok 5 then some (z.set m (gfN (gfInv (2 ^ m)) (codeQ z ^^^ x 5))) else none
  | [i, j] =>
    if ok 4 && ok 5 then
      let p := codeP z ^^^ x 4
      let q := codeQ z ^^^ x 5
      let dj := gfN (gfInv (2 ^ i ^^^ 2 ^ j)) (gfN (2 ^ i) p ^^^ q)
      some ((z.set j dj).set i (p ^^^ dj))
    else none
  | _ => none

/-- The keys of the six stripe bytes at position `e` of group `g`. -/
def State.stripeKeys (s : State) (l : BitVec 64) (g e : Nat) : List Nat := (stripes l g).map (fun p => s.hKey p.1 (p.2 + e))
/-- The data bytes at position `e` of group `g`, rebuilt where stripes are lost. -/
def State.groupData (s : State) (l : BitVec 64) (g e : Nat) : Option (List Nat) :=
  let ks := s.stripeKeys l g e
  rebuildData (fun m => s.hOk (ks.getD m 0)) (fun m => (Memory.read s.far (ks.getD m 0)).toNat)
/-- The number of stripes of a group that cannot be read at position `e`. -/
def State.lostStripes (s : State) (l : BitVec 64) (g e : Nat) : Nat := ((s.stripeKeys l g e).filter (fun k => !s.hOk k)).length

/-- Does a 32-byte unit carry a lost mark (R371)? Units of the spare in protected pages do not. -/
def State.lostMark (s : State) (key : Nat) : Bool := s.hdies.spares.contains (key / 2 ^ 37) && !s.hdies.cleared.contains (key / 32)

/-- Byte `v` of a page, with the mark it carries (R326, R358, R374, R403): a byte that no survivors give is poisoned with location class 10. -/
def State.farByte (s : State) (l : BitVec 64) (v : Nat) : Byte × Option Poison :=
  let p := leafLoc l v
  let key := s.hKey p.1 p.2
  if leafProt l then
    match mget s.hdies.carried (p.1 * 2 ^ 37 + p.2) with
    | some m => (0, some m)
    | none =>
      if s.hOk key then (Memory.read s.far key, none)
      else match s.groupData l (v / 1024) (v % 256) with
        | some d => (BitVec.ofNat 8 (d.getD (v % 1024 / 256) 0), none)
        | none => (0, some ((mget s.farP key).getD ⟨10, hdieId (key / 2 ^ 37)⟩))
  else if s.hdies.lost.contains (key / 2 ^ 37) || s.lostMark key then (0, some ⟨10, hdieId (key / 2 ^ 37)⟩)
  else (Memory.read s.far key, mget s.farP key)
/-- Can a byte of a protected page not be read: its stripe is lost and no survivors give it (R373, R374)? -/
def State.byteLost (s : State) (l : BitVec 64) (v : Nat) : Bool :=
  leafProt l && !s.hOk (s.hKey (leafLoc l v).1 (leafLoc l v).2) && (s.groupData l (v / 1024) (v % 256)).isNone

/-- The bytes of runs. -/
def State.readRuns (s : State) (rs : List FarRun) (n : Nat) : Chunk :=
  let cells := rs.flatMap (fun r => (List.range r.len).map (fun i => (r.pos + i, s.farByte r.leaf (r.v + i))))
  { bytes := (List.range n).map (fun i => (mgetD cells i (0, none)).1)
    marks := cells.filterMap (fun c => c.2.2.map (fun p => (c.1, p))) }

/-- Write one byte, or its poison, at a key of the physical store; a lost die takes nothing (R371). A die that is being copied to a spare has
every write made on both (R402). -/
def State.pokeFar (s : State) (key : Nat) (b : Byte) (m : Option Poison) : State :=
  if s.hdies.lost.contains (key / 2 ^ 37) then s
  else
    let put := fun (s : State) k => { s with
      far := Memory.write s.far k b
      farP := match m with | some p => mset s.farP k p | none => mdel s.farP k }
    let s1 := put s key
    match mget s.hdies.copy (key / 2 ^ 37) with | some d => put s1 (d * 2 ^ 37 + key % 2 ^ 37) | none => s1

/-- Write byte `v` of a page. In a protected page the surviving stripes and P and Q are updated so that the code holds; where three or more
stripes are lost the group is written as far as its stripes survive (R326, R374, R401). A poisoned byte is written as zero with its mark, and its
stripes stay in order (R403). -/
def State.writeFarByte (s : State) (l : BitVec 64) (v : Nat) (b : Byte) (m : Option Poison) : State :=
  if leafProt l then
    let g := v / 1024
    let e := v % 256
    let ks := s.stripeKeys l g e
    let put := fun (s : State) i x => s.pokeFar (ks.getD i 0) (BitVec.ofNat 8 x) none
    let i := v % 1024 / 256
    let b := if m.isSome then 0 else b.toNat
    let at_ := (leafLoc l v).1 * 2 ^ 37 + (leafLoc l v).2
    let s := { s with hdies := { s.hdies with carried := match m with | some p => mset s.hdies.carried at_ p | none => mdel s.hdies.carried at_ } }
    match s.groupData l g e with
    | some d => let d := d.set i b; put (put (put s i b) 4 (codeP d)) 5 (codeQ d)
    | none => put s i b
  else s.pokeFar (s.hKey (leafLoc l v).1 (leafLoc l v).2) b m

/-- Clear the lost marks of the units that a write of `n` bytes at a key covers whole (R371). -/
def State.clearUnits (s : State) (key n : Nat) : State :=
  if s.hdies.spares.contains (key / 2 ^ 37) then
    let us := (List.range (n / 32 + 1)).map (fun i => ceilDiv key 32 + i)
    { s with hdies := { s.hdies with cleared := s.hdies.cleared ++ us.filter (fun u => decide (32 * u + 32 ≤ key + n)) } }
  else s

/-- Write a chunk through its runs. -/
def State.writeRuns (s : State) (rs : List FarRun) (c : Chunk) : State :=
  rs.foldl (fun s r =>
    let s := if leafProt r.leaf then s else s.clearUnits (s.hKey r.h r.off) r.len
    (List.range r.len).foldl (fun s i => s.writeFarByte r.leaf (r.v + i) (c.bytes.getD (r.pos + i) 0) (mget c.marks (r.pos + i))) s) s

/-! ## Pages that the H-dies know as protected (R371, R374) -/

/-- The leaf of a protected page that holds an offset of a logical H-die. -/
def leafAt (ls : List (BitVec 64)) (h off : Nat) : Option (BitVec 64) :=
  ls.find? (fun l => (leafDies l).contains h && decide (leafOfs l ≤ off) && decide (off < leafOfs l + 2 ^ (leafSize l - 1)))
/-- The byte `v` of a protected page at an offset of a logical H-die, when it is a data byte; the group and position otherwise. -/
def leafData (l : BitVec 64) (h off : Nat) : Option Nat :=
  let q := off - leafOfs l
  let g := q / 512
  let e := q % 256
  if h = leafOwn l then some (1024 * g + q % 512)
  else if q % 512 / 256 = 1 then none
  else if h = leafHb l then some (1024 * g + 512 + e) else some (1024 * g + 768 + e)

/-- A byte of a logical H-die as an agent outside the regions reads it, given the protected pages; none where it is lost. -/
def State.rawByte (s : State) (ls : List (BitVec 64)) (h off : Nat) : Option Byte :=
  let key := s.hKey h off
  match leafAt ls h off with
  | some l => match leafData l h off with
    | some v => let r := s.farByte l v; if r.2.isNone then some r.1 else none
    | none => if s.hOk key then some (Memory.read s.far key) else
        (s.groupData l ((off - leafOfs l) / 512) (off % 256)).map (fun d => BitVec.ofNat 8 (if h = leafHb l then codeP d else codeQ d))
  | none => if s.hdies.lost.contains (key / 2 ^ 37) || s.lostMark key || (mget s.farP key).isSome then none else some (Memory.read s.far key)

/-- The far physical address as logical H-die and offset (R317). -/
def fpaDie (a : Nat) : Nat := a / 2 ^ 37 % 32
def fpaOfs (a : Nat) : Nat := a % 2 ^ 37

/-- The 8-byte entry of a page table at a far physical address (R321). -/
def State.tableEntry (s : State) (ls : List (BitVec 64)) (a : Nat) : Option (BitVec 64) :=
  let bs := (List.range 8).map (fun i => s.rawByte ls (fpaDie a) (fpaOfs a + i))
  if bs.all Option.isSome then some (BitVec.ofNat 64 (ofBytes (bs.map (fun b => b.getD 0)))) else none

/-- The leaves under a table at a level. -/
def State.leavesUnder (s : State) (ls : List (BitVec 64)) : Nat → Nat → List (BitVec 64)
  | 0, _ => []
  | n + 1, a =>
    (List.range 512).flatMap (fun i =>
      match s.tableEntry ls (a + 8 * i) with
      | some e => if leafType e = 1 then s.leavesUnder ls n (bitsOf e.toNat 41 12 * 2 ^ 12)
        else if leafType e = 2 then [e] else []
      | none => [])

/-- Word `w` of partition `p` (R316). -/
def State.part (s : State) (p w : Nat) : W64 := mgetD s.sched.parts (8 * p + w) 0
def State.partOn (s : State) (p : Nat) : Bool := (s.part p 0).getLsbD 0
def State.partRoot (s : State) (p : Nat) : Nat := bitsOf (s.part p 1).toNat 41 12 * 2 ^ 12

/-- The protected pages: those the H-dies knew when a die was lost, and those of the tables as they stand. -/
def State.protPages (s : State) : List (BitVec 64) :=
  s.hdies.prot ++ ((List.range 16).filter (fun p => s.partOn p)).flatMap (fun p => (s.leavesUnder s.hdies.prot 4 (s.partRoot p)).filter leafProt)

/-! ## The journal (R260, R361) -/

/-- The near address of byte `i` of an area that fills granted banks in order. -/
def areaAddr (banks : List Nat) (i : Nat) : Nat := banks.getD (i / 2 ^ 20) 0 + i % 2 ^ 20
/-- Bytes of an area of near memory. -/
def State.readArea (s : State) (banks : List Nat) (i n : Nat) : Chunk :=
  { bytes := (List.range n).map (fun k => Memory.read s.near (areaAddr banks (i + k)))
    marks := (List.range n).filterMap (fun k => (mget s.nearP (areaAddr banks (i + k))).map (fun p => (k, p))) }
/-- Write bytes of an area. -/
def State.writeArea (s : State) (banks : List Nat) (i : Nat) (c : Chunk) : State :=
  let w := (List.range c.bytes.length).foldl (fun (m : Mem × Marks) k =>
    (Memory.write m.1 (areaAddr banks (i + k)) (c.bytes.getD k 0),
      match mget c.marks k with | some p => mset m.2 (areaAddr banks (i + k)) p | none => mdel m.2 (areaAddr banks (i + k)))) (s.near, s.nearP)
  { s with near := w.1, nearP := w.2 }

/-- The header of a journal entry (spec/16_faults_recovery.md R361). -/
def JEntry.header (e : JEntry) : Nat :=
  e.eff * 2 ^ 128 + e.lvl * 2 ^ 126 + (if e.prot then 2 ^ 125 else 0) + e.core % 512 * 2 ^ 116 + e.va * 2 ^ 64 + e.len

/-- The place in the journal of a beat's bytes; a beat that touches both kinds of page is listed once for each, under 2j and 2j + 1. -/
def JEntry.place (e : JEntry) (k : Nat) : Nat := e.pos + 32 + 2048 * (k / 2)
/-- The bytes that the journal uses (R260). -/
def Region.jUsed (r : Region) : Nat := r.journal.foldl (fun n e => n + e.len + 32) 0

/-- The part of a held run that a run of a read meets: position in the read, position in the held beat, length. -/
def runMeet (a b : FarRun) : Option (Nat × Nat × Nat) :=
  let lo := max a.off b.off
  let hi := min (a.off + a.len) (b.off + b.len)
  if a.h = b.h ∧ lo < hi then some (a.pos + (lo - a.off), b.pos + (lo - b.off), hi - lo) else none

/-- What is left of a held run beside the bytes that another run covers. -/
def FarRun.minus (b a : FarRun) : List FarRun :=
  match runMeet a b with
  | none => [b]
  | some (_, q, n) =>
    let lo := q - b.pos
    (if lo = 0 then [] else [{ b with len := lo }]) ++
    (if lo + n < b.len then [{ b with off := b.off + lo + n, len := b.len - (lo + n), pos := b.pos + lo + n, v := b.v + lo + n }] else [])

/-- A plain write of the region, later than a close, over bytes that the close's journal is still to write: the later effect stitch holds them
(R129, R261), so the application leaves them alone. -/
def Region.cutApply (r : Region) (rs : List FarRun) : Region :=
  { r with apply := r.apply.map (fun e => { e with beats := e.beats.map (fun b => (b.1, b.2.1, b.2.2.1, rs.foldl (fun l a => l.flatMap (fun b => b.minus a)) b.2.2.2)) }) }

/-- Insert after the entries of no greater key. -/
def insertBy {α : Type} (key : α → Nat) (x : α) : List α → List α
  | [] => [x]
  | y :: l => if key y ≤ key x then y :: insertBy key x l else x :: y :: l

/-- Replace bytes of a chunk. -/
def Chunk.patch (c : Chunk) (at_ : Nat) (d : Chunk) : Chunk :=
  let n := d.bytes.length
  { bytes := c.bytes.take at_ ++ d.bytes ++ c.bytes.drop (at_ + n)
    marks := overwriteMarks c.marks at_ n d.marks }

/-- A region's own read sees the held writes of its journal, in the order of their effect stitches (R129, R260). DESIGN CHOICE (log entry
58): they are read where the journal keeps them, also after the loss of the H-die to which they are due. -/
def State.overlay (s : State) (r : Region) (rs : List FarRun) (c : Chunk) : Chunk :=
  let held := (r.journal ++ r.apply).flatMap (fun e => e.beats.map (fun b => (b.2.1, e.place b.1, b.2.2.2)))
  (held.foldl (fun l x => insertBy (fun a => a.1) x l) []).foldl (fun c h => rs.foldl (fun c a => h.2.2.foldl (fun c b =>
    match runMeet a b with
    | some (p, q, n) => c.patch p (s.readArea r.d.jrnBanks (h.2.1 + q) n)
    | none => c) c) c) c

/-- A far read by a region. -/
def State.regionRead (s : State) (r : Region) (rs : List FarRun) (n : Nat) : Chunk := s.overlay r rs (s.readRuns rs n)

end Sys2Proof.Machine
end

