-- ==== Sys2Proof/Machine/Transfer.lean ====
section
/-! DEFINITION. The issue of the xf operations (spec/10_transfer_sync_ops.md R238 to R249): the checks at t and the transfer that an accepted
operation leaves in the engine. Their slots, flits, landings and effects are served in Slots.lean and FarMove.lean. -/
namespace Sys2Proof.Machine

/-! ## Beats (R240, R241) -/

/-- The number of beats. -/
def Xfer.beats (x : Xfer) : Nat := ceilDiv x.len x.beat
/-- The bytes of a beat. -/
def Xfer.blen (x : Xfer) (j : Nat) : Nat := min (x.beat * (j + 1)) x.len - x.beat * j
/-- The scratchpad address of a beat. -/
def Xfer.scrAt (x : Xfer) (j : Nat) : Nat := x.scr + x.beat * j
/-- The route of a send or recv. -/
def Xfer.route (x : Xfer) : Nat := bitsOf x.ctl.toNat 33 24
/-- Does the transfer read the scratchpad? -/
def Xfer.reads (x : Xfer) : Bool := match x.kind with | .send | .putn | .putf | .scatf => true | _ => false
/-- Does it land in the scratchpad of its own core? -/
def Xfer.landsHere (x : Xfer) : Bool := match x.kind with | .recv | .getn | .getf | .gathf => true | _ => false
def Xfer.isFar (x : Xfer) : Bool := match x.kind with | .getf | .putf | .gathf | .scatf => true | _ => false
def Xfer.farRead (x : Xfer) : Bool := match x.kind with | .getf | .gathf => true | _ => false
def Xfer.farWrite (x : Xfer) : Bool := match x.kind with | .putf | .scatf => true | _ => false
def Xfer.isNear (x : Xfer) : Bool := match x.kind with | .getn | .putn | .amon _ _ _ _ => true | _ => false
def Xfer.isList (x : Xfer) : Bool := match x.kind with | .gathf | .scatf => true | _ => false
/-- The row size and the number of rows of a gather or scatter, and its list slots (R246). -/
def Xfer.rowBytes (x : Xfer) : Nat := tdCols x.td * tdElem x.td
def Xfer.rowCount (x : Xfer) : Nat := bitsOf x.ctl.toNat 17 5
def Xfer.listSlots (x : Xfer) : Nat := if x.isList then ceilDiv x.rowCount 64 else 0

/-- The spans of the packed block's bytes from `o`, `n` of them, over rows of `rb` bytes; fuel bounds the rows. -/
def rowSpans (rows : List Nat) (rb : Nat) : Nat → Nat → Nat → List (Nat × Nat)
  | 0, _, _ => []
  | k + 1, o, n =>
    if n = 0 then [] else
      let m := min n (rb - o % rb)
      (rows.getD (o / rb) 0 + o % rb, m) :: rowSpans rows rb k (o + m) (n - m)
/-- The spans of far addresses of a beat (R241, R246). -/
def Xfer.spans (x : Xfer) (j : Nat) : List (Nat × Nat) :=
  if x.isList then rowSpans x.rows x.rowBytes (x.blen j + 1) (x.beat * j) (x.blen j) else [(x.rem + x.beat * j, x.blen j)]
/-- The runs of a beat. -/
def Xfer.runs (x : Xfer) (j : Nat) : List FarRun := farRuns x.leaves (x.spans j)
/-- Does a beat touch a protected page? -/
def Xfer.prot (x : Xfer) (j : Nat) : Bool := (x.runs j).any (fun r => leafProt r.leaf)

/-- The probe stitch of a beat (R126). -/
def Xfer.probeAt (x : Xfer) (j : Nat) : Nat := x.trig + 360 + j
/-- The effect stitch of the last bytes of a far beat: 300 later on a protected page (R126, R241). -/
def Xfer.effAt (x : Xfer) (j : Nat) : Nat := x.slot0 + j + (if x.prot j then 300 else 0)
/-- The runs of a beat with their effect in stitch `t`: each page of a beat that touches both kinds keeps its own stitch. -/
def Xfer.dueRuns (x : Xfer) (j t : Nat) : List FarRun := (x.runs j).filter (fun r => x.slot0 + j + (if leafProt r.leaf then 300 else 0) == t)
/-- The stitch of the finish of a transfer (R249). -/
def Xfer.finish (x : Xfer) : Nat :=
  let n := x.beats
  match x.kind with
  | .send => x.read0 + n - 1
  | .putn => x.slot0 + n - 1
  | .putf | .scatf => (List.range n).foldl (fun m j => max m (x.effAt j)) 0
  | _ => x.land0 + n - 1
/-- The last stitch in which the engine still acts for it. -/
def Xfer.lastAt (x : Xfer) : Nat := match x.kind with | .send => x.land0 + x.beats - 1 | _ => x.finish

/-- Take a new transfer into the engine. -/
def Core.xfAdd (c : Core) (x : Xfer) : Core :=
  { c with xf := { c.xf with xfers := c.xf.xfers ++ [x], opens := c.xf.opens ++ [x.finish], last := max c.xf.last x.finish } }
/-- Replace the transfer of a trigger stitch; a finish that has moved later is taken into its group (R249). -/
def XfEng.update (e : XfEng) (x : Xfer) : XfEng :=
  let e1 : XfEng := { e with xfers := e.xfers.map (fun (y : Xfer) => if y.trig = x.trig then x else y), last := max e.last x.finish }
  if e.xfers.all (fun y => y.trig != x.trig || y.finish == x.finish) then e1
  else match x.grp with
    | some g => { e1 with grp := closeGroup e1.grp [x.finish] g }
    | none => { e1 with opens := e1.opens ++ [x.finish] }
/-- The transfer of a trigger stitch. -/
def Core.xfer (c : Core) (t : Nat) : Option Xfer := c.xf.xfers.find? (fun x => x.trig == t)
def Core.setXfer (c : Core) (x : Xfer) : Core := { c with xf := c.xf.update x }
/-- Void beats of a transfer. -/
def Xfer.lose (x : Xfer) (js : List Nat) : Xfer := { x with gone := x.gone ++ js }

/-! ## Checks (R119, R240, R243, R244) -/

/-- A failed check of an xf operation: code and detail words. -/
abbrev XFail := Option (Nat × Nat × Nat × Nat)

/-- The BOUNDS checks of the beats, then the ALIGN checks: scratchpad, near, far. -/
def xferAddrCheck (near far : Bool) (x : Xfer) : XFail :=
  let js := List.range x.beats
  if js.any (fun j => !scrIn (x.scrAt j) (x.blen j)) then some (0x21, x.scr, x.len, 0)
  else if near && js.any (fun j => !nearOne (x.rem + x.beat * j) (x.blen j)) then some (0x21, x.rem, x.len, 1)
  else if far && decide (2 ^ 52 < x.rem + x.len) then some (0x21, x.rem, x.len, 2)
  else if x.scr % 32 ≠ 0 ∨ x.len % 32 ≠ 0 then some (0x20, x.scr, x.len, 0)
  else if near && x.rem % 32 != 0 then some (0x20, x.rem, x.len, 1)
  else if far && x.rem % 32 != 0 then some (0x20, x.rem, x.len, 2)
  else none

/-- The PROTECTION checks of a near transfer: grant, then preserve area and journal (R244). -/
def xferNearProt (d : Descr) (x : Xfer) : XFail :=
  (List.range x.beats).findSome? (fun j =>
    let a := x.rem + x.beat * j
    (d.nearProt a).map (fun r => (0x22, a, r, 0)))

/-! ## Paths (spec/06_encoding.md R165; spec/11_puzil.md R272; spec/18_links_host_boot.md R382, R383) -/

/-- The positions along one axis after each step. -/
def axisSteps (a b : Nat) : List Nat := if a ≤ b then (List.range (b - a)).map (fun i => a + i + 1) else (List.range (a - b)).map (fun i => a - i - 1)
/-- The cores of a path after its source, by dimension order; y counts on through the parts of a region. -/
def pathOf (x y x' y' order : Nat) : List (Nat × Nat) :=
  if order = 1 then (axisSteps y y').map (fun b => (x, b)) ++ (axisSteps x x').map (fun a => (a, y'))
  else (axisSteps x x').map (fun a => (a, y)) ++ (axisSteps y y').map (fun b => (x', b))

/-- A step of a path: the core left, by x and y, and the direction: 0 north, 1 east, 2 south, 3 west. -/
abbrev Leg := Nat × Nat × Nat
/-- The steps of a path from one core to another. -/
def legsOf (x y x' y' order : Nat) : List Leg :=
  let l := pathOf x y x' y' order
  (((x, y) :: l).zip l).map (fun q => (q.1.1, q.1.2, if q.1.2 < q.2.2 then 0 else if q.1.1 < q.2.1 then 1 else if q.2.2 < q.1.2 then 2 else 3))
/-- Does a step leave its die; its package? -/
def Leg.die (l : Leg) : Bool := match l with | (x, y, d) => (d == 0 && y % 8 == 7) || (d == 1 && x % 8 == 7) || (d == 2 && y % 8 == 0) || (d == 3 && x % 8 == 0)
def Leg.fab (l : Leg) : Bool := match l with | (_, y, d) => (d == 0 && y % 64 == 63) || (d == 2 && y % 64 == 0)
/-- What a step uses on part `p`, each under a number of its own: a directed seam, 4 times the die left plus the direction, where H-die h counts as die
96 + h (spec/01_panel.md R15: an end C-die joins its H-die by a seam); a router output, 2^12 + 4 times the core plus the direction; a direction of a
fabric port, 2^16 + twice the port, plus 1 inward. -/
def Leg.uses (p : Nat) (l : Leg) : List Nat :=
  match l with
  | (x, y, d) =>
    (if y / 64 = p then (if Leg.die l then [4 * (x / 8 + 12 * (y % 64 / 8)) + d] else []) ++ [2 ^ 12 + 4 * (96 * (y % 64) + x) + d] ++
        (if Leg.fab l then [2 ^ 16 + 2 * (if d = 0 then 12 + x / 8 else x / 8)] else []) else []) ++
    (if Leg.fab l ∧ d = 0 ∧ y / 64 + 1 = p then [4 * (96 + x / 8), 2 ^ 16 + 2 * (x / 8) + 1] else []) ++
    (if Leg.fab l ∧ d = 2 ∧ y / 64 = p + 1 then [4 * (108 + x / 8) + 2, 2 ^ 16 + 2 * (12 + x / 8) + 1] else [])

/-- The steps of a route. -/
def Route.legs (e : Route) (d : Descr) : List Leg :=
  legsOf (d.x0 + e.sx) (d.y0 + e.sy + 64 * e.sp) (d.x0 + e.dx) (d.y0 + e.dy + 64 * e.dp) e.order
/-- What a route uses on this package. -/
def Route.uses (e : Route) (d : Descr) : List Nat := (e.legs d).flatMap (Leg.uses d.pkg)
/-- A route with its lengths (R48): the hops inside dies, the die crossings, of which a fabric crossing counts two, and the fabric crossings (R383). -/
def Route.measured (e : Route) (d : Descr) : Route :=
  let l := e.legs d
  let f := (l.filter Leg.fab).length
  { e with h := (l.filter (fun q => !Leg.die q)).length, d := (l.filter Leg.die).length + f, f := f }

/-! ## Routes of send and recv (R243) -/

/-- The id of the C-die that serves a core, as the base of its class 2 window (spec/14_system_state.md R306; spec/16_faults_recovery.md R354). -/
def Maps.routerId (m : Maps) (c : Nat) : Nat := 2 * 2 ^ 36 + m.dieCol (c % 96 / 8) * 2 ^ 32 + (c / 96 / 8) * 2 ^ 29

/-- ROUTE_MISMATCH with the row of R243. -/
def State.routeFail (s : State) (rt case_ : Nat) : XFail := some (0x12, rt, case_, s.maps.routerId s.focus.core)

/-- The route entry of a route whose width is 24 and that is set up. -/
def Region.route (r : Region) (rt : Nat) : Option Route := (mget r.routes rt).bind (fun e => if e.width = 24 && e.on then some e else none)
/-- The core at region-relative coordinates. -/
def Descr.coreXY (d : Descr) (x y : Nat) : Nat := 96 * (d.y0 + y) + d.x0 + x
/-- Is a core at region-relative coordinates? -/
def Descr.isXY (d : Descr) (id x y : Nat) : Bool := decide (x < d.wid) && decide (y < d.hgt) && id == d.coreXY x y

/-- The send whose first beat lands on a route at stitch `s`: its core and trigger stitch (R243). -/
def State.sendDue (s : State) (r : Region) (e : Route) (rt at_ : Nat) : Option (Nat × Nat) :=
  let src := r.d.coreXY e.sx e.sy
  if e.sp ≠ r.d.pkg then none
  else ((s.core src).xf.xfers.find? (fun x => x.kind == .send && x.route == rt && x.land0 == at_)).map (fun x => (src, x.trig))

/-- The checks of send, and of recv with the send it is paired with (R243). A beat due in stitch t counts as still to come. DESIGN CHOICE (log entry
30): a send on another package is not held here, and a recv of its route counts as paired with one. -/
def sendCheck (s : State) (x : Xfer) : XFail :=
  let r := s.fr
  match r.route x.route with
  | none => s.routeFail x.route 0
  | some e =>
    if e.sp ≠ r.d.pkg ∨ !r.d.isXY s.focus.core e.sx e.sy then s.routeFail x.route 0
    else if 0 < x.len && s.fc.xf.xfers.any (fun y => y.kind == .send && y.route == x.route && decide (y.trig < x.trig) && decide (x.trig < y.read0 + y.beats)) then
      s.routeFail x.route 1
    else none
def recvCheck (s : State) (x : Xfer) : XFail :=
  let r := s.fr
  match r.route x.route with
  | none => s.routeFail x.route 0
  | some e =>
    if e.dp ≠ r.d.pkg ∨ !r.d.isXY s.focus.core e.dx e.dy then s.routeFail x.route 0
    else if x.len = 0 then none
    else if e.sp = r.d.pkg ∧ (s.sendDue r e x.route (x.trig + 2)).isNone then s.routeFail x.route 2
    else if s.fc.xf.xfers.any (fun y => y.kind == .recv && y.route == x.route && decide (y.trig < x.trig) && decide (x.trig < y.land0 + y.beats)) then
      s.routeFail x.route 3
    else none

/-! ## The translation of a far access (R244, R322, R323) -/

/-- What the cache holds for the frames of spans: the entries by frame, and the lowest addresses of the frames that miss. -/
def Core.lookSpans (c : Core) (spans : List (Nat × Nat)) : Map (BitVec 64) × List Nat :=
  (spans.flatMap (fun p => frames p.1 p.2)).foldl (fun acc f =>
    match c.tceLook f.1 with
    | some l => (mset acc.1 (f.1 / 2 ^ 16) l, acc.2)
    | none => (acc.1, if acc.2.any (fun v => v / 2 ^ 16 == f.1 / 2 ^ 16) then acc.2.map (fun v => if v / 2 ^ 16 = f.1 / 2 ^ 16 then min v f.1 else v) else acc.2 ++ [f.1])) ([], [])

/-- Put an event into the list of those that fall due in wall-clock time, after a delay that the spec leaves open (log entry 8). -/
def State.later (s : State) (i : Instr) : State :=
  let (n, s) := s.fresh
  { s with inputs := insertBy (fun p => p.1) (s.pcyc + 1 + Config.wallDelay n, i) s.inputs }

/-- A miss: the XLATE cause with its record, and one request for each missed frame (R301, R315, R323). -/
def State.xlate (s : State) (dst baddr trig : Nat) (missed : List Nat) : State :=
  let s1 := s.raiseHere { code := cXLATE, dst := dst, baddr := baddr, w5 := missed.foldl min (2 ^ 64 - 1), tag := trig }
  missed.foldl (fun s v => s.later (.translationWalk s.focus.rg (s.fr.d.relOf s.focus.core) v)) s1

/-- The journal entry of an accepted transfer (R260, R361). -/
def Region.journalAdd (r : Region) (core : Nat) (x : Xfer) : Region :=
  { r with journal := r.journal ++ [{ trig := x.trig, core := core, lvl := r.clk.cdlev - 1, pos := r.jUsed, va := x.rem, eff := x.effAt 0, len := x.len }] }

/-- Accept a far transfer: what the cache holds, the misses, and the journal. DESIGN CHOICE (log entry 46): spec/01_panel.md R27 and
spec/02_stitch_time.md R49 limit a core's far rate to 2,048 bytes a stitch and name no fault for transfers of one core that overlap and exceed it
together; each of them proceeds at its own stitches. -/
def acceptFar (dst : Nat) (x : Xfer) (s : State) : State :=
  let c := s.fc
  let (leaves, missed) := c.lookSpans (if x.isList then [] else [(x.rem, x.len)])
  let jrn := x.farWrite && decide (0 < s.fr.clk.cdlev)
  let y := { x with leaves := leaves, missed := missed.map (fun v => (v / 2 ^ 16, x.trig)), jrn := jrn }
  let s1 := s.setFc ((c.occupy .xf x.trig 1).xfAdd y)
  let s2 := if jrn then s1.modFr (fun r => r.journalAdd (r.d.relOf s.focus.core) y) else s1
  if missed.isEmpty then s2 else s2.xlate dst x.baddr x.trig missed

/-- The PROTECTION checks of putf and scatf at t: write permission in the cache, then the journal's capacity (R244, R260). -/
def farWriteProt (s : State) (x : Xfer) : XFail :=
  let w := if x.isList then none else
    (s.fc.lookSpans [(x.rem, x.len)]).1.find? (fun p => !leafW p.2)
  match w with
  | some p => some (0x22, max x.rem (p.1 * 2 ^ 16), 2, 0)
  | none => if 0 < s.fr.clk.cdlev ∧ s.fr.d.jcap < s.fr.jUsed + x.len + 32 then some (0x22, x.rem, 3, 0) else none

/-! ## The operations -/

/-- Raise a failed check of the acting core. -/
def State.xFail (s : State) (dst : Nat) (f : Nat × Nat × Nat × Nat) : State :=
  s.raiseHere { code := f.1, dst := dst, baddr := s.fc.cur, w5 := f.2.1, w6 := f.2.2.1, w7 := f.2.2.2 }

/-- The transfer that an operation describes at t (R240, R241, R246, R247). -/
def mkXfer (k : XfKind) (m : BitVec 3) (s : State) : Xfer :=
  let c := s.fc
  let t := s.sc
  let ctl := c.o1 .xf
  let rem := c.o0 .xf
  let len := ctl % 2 ^ 24
  let d := nearDist s.focus.core rem
  let add := s.fr.d.farAdd
  let x : Xfer := { kind := k, trig := t, baddr := c.cur, ctl := BitVec.ofNat 64 ctl, scr := c.o2 .xf, rem := rem, len := len, beat := 6144,
                    read0 := t + 1, slot0 := t + 36 + 24 * d, land0 := t + 40 + 48 * d, mod := m != 0 }
  let td := c.sp.td.get (Fin.ofNat 32 (ctl % 32))
  let n := bitsOf ctl 17 5
  let rb := tdCols td * tdElem td
  match k with
  | .send =>
    let lat := match mget s.fr.routes (bitsOf ctl 33 24) with | some e => 4 + 2 * e.h + 24 * e.d + s.fr.d.lfab * e.f | none => 0
    { x with rem := 0, land0 := t + lat }
  | .recv => { x with rem := 0, land0 := t + 2 }
  | .getn | .putn => x
  | .getf => { x with beat := 2048, slot0 := t + 360 + add, land0 := t + 720 + add }
  | .putf => { x with beat := 2048, slot0 := t + 600 + add }
  | .gathf => { x with beat := 2048, rem := tdBase td, len := n * rb, td := td, slot0 := t + 360 + add, land0 := t + 720 + add }
  | .scatf => { x with beat := 2048, rem := tdBase td, len := n * rb, td := td, read0 := t + 1 + ceilDiv n 64, slot0 := t + 600 + add }
  | .amon _ w _ _ => { x with scr := 0, len := w, beat := w, land0 := t + 44 + 48 * d }

/-- send and recv. -/
def startRoute (o : XfOp) (k : XfKind) (m : BitVec 3) (s : State) : State :=
  let x := mkXfer k m s
  let chk := match xferAddrCheck false false x with | some f => some f | none => if k = .send then sendCheck s x else recvCheck s x
  match (if x.len = 0 then (if k = .send then sendCheck s x else recvCheck s x) else chk) with
  | some f => s.xFail (Op.dst (.xf o)) f
  | none =>
    if x.len = 0 then s.setFc (s.fc.occupy .xf x.trig 1)
    else
      let peer := (s.fr.route x.route).bind (fun e => s.sendDue s.fr e x.route (x.trig + 2))
      s.setFc ((s.fc.occupy .xf x.trig 1).xfAdd (if k = .recv then { x with peer := peer } else x))

/-- getn and putn. -/
def startNear (o : XfOp) (k : XfKind) (m : BitVec 3) (s : State) : State :=
  let x := mkXfer k m s
  if x.len = 0 then s.setFc (s.fc.occupy .xf x.trig 1)
  else match xferAddrCheck true false x with
    | some f => s.xFail (Op.dst (.xf o)) f
    | none => match xferNearProt s.fr.d x with
      | some f => s.xFail (Op.dst (.xf o)) f
      | none => s.setFc ((s.fc.occupy .xf x.trig 1).xfAdd x)

/-- getf and putf. -/
def startFar (o : XfOp) (k : XfKind) (m : BitVec 3) (s : State) : State :=
  let x := mkXfer k m s
  if x.len = 0 then s.setFc (s.fc.occupy .xf x.trig 1)
  else match xferAddrCheck false true x with
    | some f => s.xFail (Op.dst (.xf o)) f
    | none => match (if x.farWrite then farWriteProt s x else none) with
      | some f => s.xFail (Op.dst (.xf o)) f
      | none => acceptFar (Op.dst (.xf o)) x s

/-- The DESCRIPTOR check of gathf and scatf (R246). -/
def gathDesc (td : BitVec 256) : Option Nat :=
  match tdCheck td false false 32 with
  | some k => some k
  | none => if tdSpace td ≠ 2 then some 6 else if tdFmt td = 9 then some 7 else none

/-- The BOUNDS and ALIGN checks of the list and the block (R246). -/
def gathAddr (list : Nat) (x : Xfer) : XFail :=
  if (List.range x.listSlots).any (fun m => !scrIn (list + 256 * m) 256) then some (0x21, list, 4 * x.rowCount, 0)
  else if (List.range x.beats).any (fun j => !scrIn (x.scrAt j) (x.blen j)) then some (0x21, x.scr, x.len, 0)
  else if list % 256 ≠ 0 then some (0x20, list, 4 * x.rowCount, 0)
  else if x.scr % 32 ≠ 0 ∨ x.rowBytes % 32 ≠ 0 then some (0x20, x.scr, x.len, 0)
  else none

/-- gathf and scatf. DESIGN CHOICE (log entry 49): with N = 0, where R240 says that no address is checked, the checks of the descriptor are still made;
an N of 4,097 to 8,191, which the field holds and the range of the rule does not, moves that many rows. -/
def startGath (o : XfOp) (k : XfKind) (m : BitVec 3) (s : State) : State :=
  let x := mkXfer k m s
  match gathDesc x.td with
  | some n => s.xFail (Op.dst (.xf o)) (0x25, x.ctl.toNat % 32, n, 0)
  | none =>
    if x.len = 0 then s.setFc (s.fc.occupy .xf x.trig 1)
    else match gathAddr (s.fc.o0 .xf) x with
      | some f => s.xFail (Op.dst (.xf o)) f
      | none => match (if x.farWrite then farWriteProt s x else none) with
        | some f => s.xFail (Op.dst (.xf o)) f
        | none => acceptFar (Op.dst (.xf o)) { x with list := s.fc.o0 .xf } s

/-- The bank ALU operation of an amon (R247). -/
def amonOp (n : Nat) : Option AOp :=
  match n with
  | 0 => some .add | 1 => some .and | 2 => some .or | 3 => some .xor | 4 => some .min | 5 => some .max | 6 => some .minu | 7 => some .maxu
  | 8 => some .xchg | 9 => some .cas | 10 => some .fadd | 11 => some .fmin | 12 => some .fmax | _ => none
/-- The operand value that R247 makes illegal: a reserved OP, or W = 1 with OP 9 to 12. -/
def amonBad (b : Nat) : Bool := decide (12 < b % 16) || (b.testBit 4 && decide (9 ≤ b % 16))

/-- amon with a legal control word. -/
def startAmon (m : BitVec 3) (s : State) : State :=
  let c := s.fc
  let b := c.o1 .xf
  let n := if b.testBit 4 then 8 else 4
  let op := (amonOp (b % 16)).getD .add
  let v := c.o2 .xf % 2 ^ (8 * n)
  let x := mkXfer (.amon op n (BitVec.ofNat 64 v) (BitVec.ofNat 64 (c.o2 .xf / 2 ^ 32))) m s
  match nearCheck x.rem n n with
  | some code => s.xFail (Op.dst (.xf .amon)) (code, x.rem, n, 1)
  | none => match s.fr.d.nearProt x.rem with
    | some r => s.xFail (Op.dst (.xf .amon)) (0x22, x.rem, r, 0)
    | none => s.setFc ((c.occupy .xf x.trig 1).xfAdd x)

/-- The token of a flush (R248). -/
def flushToken (b : Nat) : Nat := 2 ^ 63 + b % 2 ^ 16

/-- Every xf operation. An amon whose control word is illegal does not reach this (R160). -/
def startXf (o : XfOp) (x : Trig) (s : State) : State :=
  let c := s.fc
  let t := s.sc
  let b := c.o1 .xf
  match o with
  | .send => startRoute o .send x.m s
  | .recv => startRoute o .recv x.m s
  | .getn => startNear o .getn x.m s
  | .putn => startNear o .putn x.m s
  | .getf => startFar o .getf x.m s
  | .putf => startFar o .putf x.m s
  | .gathf => startGath o .gathf x.m s
  | .scatf => startGath o .scatf x.m s
  | .amon => startAmon x.m s
  | .flush =>
    let f := t + 640 + s.fr.d.farAdd
    let c := (c.occupy .xf t 1).landLatch .xf false t (640 + s.fr.d.farAdd) (flushToken b) 0
    s.setFc { c with xf := { c.xf with opens := c.xf.opens ++ [f], last := max c.xf.last f } }
  | .commit =>
    let c := c.occupy .xf t 1
    let e := c.xf
    s.setFc { c with xf := { e with
      grp := closeGroup e.grp e.opens (b % 8), opens := []
      xfers := e.xfers.map (fun y => if y.grp.isNone then { y with grp := some (b % 8) } else y) } }
  | .wait =>
    let f := c.xf.grp.get (Fin.ofNat 8 (b % 8))
    if t < f then s.raiseHere { code := 0x10, dst := Op.dst (.xf o), baddr := c.cur, w5 := 1, w6 := f, w7 := t }
    else s.setFc (c.occupy .xf t 1)

end Sys2Proof.Machine
end

