-- ==== Sys2Proof/Machine/Sync.lean ====
section
/-! DEFINITION. The sy operations (spec/10_transfer_sync_ops.md R252 to R267) with the drawstring of spec/02_stitch_time.md R37 to R40 and the
liveness table (spec/03_core.md R86, R87). -/
namespace Sys2Proof.Machine

/-! ## The liveness table (R86, R87) -/

def Core.ltBase (c : Core) : Nat := bitsOf c.sp.ltinfo.toNat 16 0
def Core.ltCount (c : Core) : Nat := bitsOf c.sp.ltinfo.toNat 27 17
/-- Entry `i` of the liveness table, 512 bits. -/
def Core.liveEntry (c : Core) (i : Nat) : Nat := Memory.readLE c.imem (c.ltBase + 64 * i) 64
def liveG (e n : Nat) : Bool := e.testBit n
def liveV (e n : Nat) : Bool := e.testBit (32 + n)
def liveP (e n : Nat) : Bool := e.testBit (64 + n)
def liveT (e n : Nat) : Bool := e.testBit (72 + n)
def liveRangeCount (e : Nat) : Nat := bitsOf e 91 88
/-- The used scratchpad ranges: base and length. -/
def liveRanges (e : Nat) : List (Nat × Nat) :=
  (List.range (liveRangeCount e)).map (fun j => (bitsOf e (128 + 48 * j + 20) (128 + 48 * j), bitsOf e (128 + 48 * j + 41) (128 + 48 * j + 21)))
/-- Does an index or an entry break R87? -/
def Core.liveBad (c : Core) (i : Nat) : Bool :=
  decide (c.ltCount ≤ i) || decide (8 < liveRangeCount (c.liveEntry i)) ||
    (liveRanges (c.liveEntry i)).any (fun r => decide (scrEnd < r.1 + r.2))

/-- The beats of a copied range: up to 6,144 bytes each, ending at multiples of `bank` (R259); fuel bounds them. -/
def copyCuts (bank : Nat) : Nat → Nat → Nat → List (Nat × Nat)
  | 0, _, _ => []
  | k + 1, a, n => if n = 0 then [] else let m := min (min n 6144) (bank - a % bank); (a, m) :: copyCuts bank k (a + m) (n - m)
/-- The beats of the scratchpad ranges of an entry, and of a near range. -/
def scrCuts (e : Nat) : List (Nat × Nat) := (liveRanges e).flatMap (fun r => copyCuts (2 ^ 19) (r.2 / 6144 + 8) r.1 r.2)
def nearCuts (a n : Nat) : List (Nat × Nat) := copyCuts (2 ^ 20) (n / 6144 + n / 2 ^ 20 + 8) a n

/-- The copy beats of one core of a domain that opens after a cdopen at `t`; `p` is its place in the quarter (R259, R360). -/
def copyBeatsOf (t core : Nat) (id : Nat) (e a n : Nat) (p : Nat) : List CopyBeat :=
  let sc := scrCuts e
  let nc := nearCuts a n
  let pos := fun (l : List (Nat × Nat)) m => (l.take m).foldl (fun x r => x + r.2) 0
  let total := pos sc sc.length
  (List.range sc.length).map (fun m =>
    let r := sc.getD m (0, 0); { core := core, near := false, addr := r.1, len := r.2, due := t + 1 + m, tgt := p + pos sc m }) ++
  (List.range nc.length).map (fun m =>
    let r := nc.getD m (0, 0)
    { core := core, near := true, addr := r.1, len := r.2, due := t + 36 + 24 * nearDist id a + m, tgt := p + total + pos nc m })

/-! ## The drawstring (R37 to R41, R253, R254) -/

/-- Is a core halted in stitch `t` (R34)? -/
def Core.haltedAt (c : Core) (t : Nat) : Bool := match c.issue with | .halted s => decide (s ≤ t) | _ => false
def Core.isHalted (c : Core) : Bool := match c.issue with | .halted _ => true | _ => false

/-- The issue state after sync or waitrel at `t`: waiting, keeping the idle count of the bundle (R34, R38). -/
def Issue.wait (x : Issue) (t : Nat) : Issue := match x with | .idle r => .waiting r | .halted s => .halted s | _ => .waiting (t + 1)
/-- The issue state after an idle move of count `n` at `t` (R34, R153). -/
def Issue.idleFor (x : Issue) (t n : Nat) : Issue :=
  match x with
  | .waiting _ => .waiting (t + 1 + n)
  | .halted s => .halted s
  | x => if n = 0 then x else .idle (t + 1 + n)

/-- The detail words of drawstring misuse (R354: kind 4). -/
def stringFault (code : Nat) (o : SyOp) (c : Core) : FaultInfo := { code := code, dst := Op.dst (.sy o), baddr := c.cur, w5 := if code = 0x10 then 4 else 0 }

/-- sync, arrive and waitrel (R38, R40). -/
def startString (o : SyOp) (s : State) : State :=
  let c := s.fc
  let t := s.sc
  let c1 := c.occupy .sy t 1
  match o with
  | .waitrel =>
    if c.arr.isNone then s.raiseHere (stringFault 0x10 o c) else s.setFc { c1 with issue := c.issue.wait t }
  | _ =>
    if !s.fr.member s.focus.core then s.raiseHere (stringFault 0x15 o c)
    else if c.arr.isSome then s.raiseHere (stringFault 0x10 o c)
    else s.setFc { c1 with arr := some t, issue := if o = .sync then c.issue.wait t else c.issue }

/-! ## Same-stitch operations (R59, R258, R261) -/

/-- Note that the acting core issued an operation that every non-halted core must issue in this stitch. -/
def Region.noteSame (r : Region) (op : SameOp) (t : Nat) (x : SameIssue) : Region :=
  if r.same.any (fun k => k.op == op && k.at_ == t) then
    { r with same := r.same.map (fun k => if k.op = op ∧ k.at_ = t then { k with cores := k.cores ++ [x] } else k) }
  else { r with same := r.same ++ [{ op := op, at_ := t, cores := [x] }] }

/-- phint (R257): the first one in or after the stitch that armed the region is the pre-emption point, and adds the PREEMPT cause (R58). -/
def startPhint (s : State) : State :=
  let c := s.fc
  let t := s.sc
  let i := s.fr.d.relOf s.focus.core
  let e := c.o1 .sy % 2 ^ 10
  let s1 := (s.setFc (c.occupy .sy t 1)).modFr (fun r => r.noteSame .phint t { core := i, baddr := c.cur, entry := e })
  let p := s.fr.pre
  if p.armed && p.point.isNone then
    (s1.modFr (fun r => { r with pre := { r.pre with point := some t, named := [(i, e)] } })).addCause s.focus.rg t cPREEMPT
  else if p.point = some t then s1.modFr (fun r => { r with pre := { r.pre with named := mset r.pre.named i e } })
  else s1

/-- The SLIP of cdopen and cdclose (R354: kind 5). -/
def domSlip (o : SyOp) (c : Core) (lev : Nat) : FaultInfo := { code := 0x10, dst := Op.dst (.sy o), baddr := c.cur, w5 := 5, w6 := 0, w7 := lev }

/-- cdopen (R258): the checks; the domain opens at the start of the next stitch. DESIGN CHOICE (log entry 50): a core whose cdopen fails a check has
not issued it, so the others also give the mismatch SLIP at t + Dr. DESIGN CHOICE (log entry 45): the copies join the group of the first commit
after stitch t, not of one in the same bundle. -/
def startCdopen (s : State) : State :=
  let c := s.fc
  let t := s.sc
  let i := c.o1 .sy % 2 ^ 10
  let a := c.o0 .sy
  let n := c.o2 .sy
  let cuts := nearCuts a n
  let fail := fun code w5 w6 w7 => s.raiseHere { code := code, dst := Op.dst (.sy .cdopen), baddr := c.cur, w5 := w5, w6 := w6, w7 := w7 }
  if s.fr.clk.cdlev = 4 ∨ t < c.xf.last ∨ c.mx.muls.any (fun m => decide (t < m.finish)) ∨ c.mx.moves.any (fun m => decide (t < m.finish)) then
    s.raiseHere (domSlip .cdopen c s.fr.clk.cdlev)
  else if c.liveBad i then fail 0x21 i 0 0
  else if n ≠ 0 ∧ (2 ^ 33 < a + n ∨ cuts.any (fun r => !nearOne r.1 r.2)) then fail 0x21 a n 1
  else if n ≠ 0 ∧ (a % 32 ≠ 0 ∨ n % 32 ≠ 0) then fail 0x20 a n 1
  else match cuts.find? (fun r => !s.fr.d.granted r.1) with
    | some r => fail 0x22 r.1 0 0
    | none =>
      (s.setFc (c.occupy .sy t 1)).modFr (fun r =>
        r.noteSame .cdopen t { core := r.d.relOf s.focus.core, baddr := c.cur, entry := i, a := a, len := n })

/-- Does a journalled beat that the acting core issued in the innermost domain still have its effect at `t` or later (R261)? -/
def Region.journalLate (r : Region) (c : Core) (core t : Nat) : Bool :=
  c.xf.xfers.any (fun x => x.jrn && r.journal.any (fun e => e.trig == x.trig && e.core == core && e.lvl + 1 == r.clk.cdlev) &&
    (List.range x.beats).any (fun j => decide (t ≤ x.effAt j)))

/-- cdclose (R261): the checks; the domain closes at the start of the next stitch. -/
def startCdclose (s : State) : State :=
  let c := s.fc
  let t := s.sc
  let i := s.fr.d.relOf s.focus.core
  if s.fr.clk.cdlev = 0 ∨ s.fr.journalLate c i t then s.raiseHere (domSlip .cdclose c s.fr.clk.cdlev)
  else (s.setFc (c.occupy .sy t 1)).modFr (fun r => r.noteSame .cdclose t { core := i, baddr := c.cur, entry := 0 })

/-! ## The plan trigger (R263) -/

/-- Fire a plan: its release is due Dr later. -/
def Plan.fire (p : Plan) (t dr core baddr : Nat) : Plan := { p with rel := some (t + dr), fired := some (t, core, baddr, false) }

/-- The SLIP of a ctrig (R354: kind 6). -/
def trigSlip (p : Plan) (t baddr : Nat) : FaultInfo := { code := 0x10, dst := Op.dst (.sy .ctrig), baddr := baddr, w5 := 6, w6 := p.fin, w7 := t }

def Region.setPlan (r : Region) (p : Plan) : Region := { r with plans := r.plans.map (fun q => if q.handle = p.handle then p else q) }

/-- ctrig. Cores that fire one handle in one stitch each raise SLIP, and the plan is not fired. DESIGN CHOICE (log entry 55): after a
rollback a ctrig that runs again no later than the stitch that R277 makes the plan's last completion is accepted, for R263 names no fault for it. -/
def startCtrig (s : State) : State :=
  let c := s.fc
  let t := s.sc
  let h := c.o1 .sy % 2 ^ 32
  let id := s.focus.core
  match s.fr.plans.find? (fun p => p.handle == h) with
  | none => s.raiseHere { code := 0x22, dst := Op.dst (.sy .ctrig), baddr := c.cur, w5 := h, w6 := 4 }
  | some p =>
    match p.fired with
    | some (t0, core0, b0, clash) =>
      if t0 = t then
        let s1 := if clash then s else s.raise s.focus.rg core0 t (trigSlip p t b0)
        (s1.raiseHere (trigSlip p t c.cur)).modFr (fun r => r.setPlan { p with rel := none, fired := some (t, core0, b0, true) })
      else if p.rel.isSome then s.raiseHere (trigSlip p t c.cur)
      else (s.setFc (c.occupy .sy t 1)).modFr (fun r => r.setPlan (p.fire t r.d.dr id c.cur))
    | none =>
      if p.rel.isSome then s.raiseHere (trigSlip p t c.cur)
      else (s.setFc (c.occupy .sy t 1)).modFr (fun r => r.setPlan (p.fire t r.d.dr id c.cur))

/-! ## Guards and watchpoints (R264) -/

/-- The value that sy.guard writes, from a, b and c. -/
def guardValue (a b c : Nat) : Nat :=
  let len := c % 2 ^ 29
  (if len = 0 then 0 else 2 ^ 63) + b / 4 % 2 * 2 ^ 62 + len * 2 ^ 33 + a % 2 ^ 33
/-- Does sy.guard name bytes outside its space? -/
def guardBad (a b : Nat) : Bool := if b / 4 % 2 = 0 then decide (2 ^ 21 ≤ a % 2 ^ 33) else !nearIn (a % 2 ^ 33)
/-- The value that sy.watch writes. -/
def watchValue (a b : Nat) : Nat := b / 64 % 2 * 2 ^ 63 + b / 2 % 4 * 2 ^ 61 + b / 8 % 8 * 2 ^ 58 + a % 2 ^ 52

/-- Every sy operation. -/
def startSy (o : SyOp) (x : Trig) (s : State) : State :=
  let c := s.fc
  let t := s.sc
  let a := c.o0 .sy
  let b := c.o1 .sy
  let k := c.o2 .sy
  let c1 := c.occupy .sy t 1
  let fault := fun code w5 w6 w7 => s.raiseHere { code := code, dst := Op.dst (.sy o), baddr := c.cur, w5 := w5, w6 := w6, w7 := w7 }
  match o with
  | .sync | .arrive | .waitrel => startString o s
  | .halt => s.setFc { c1 with issue := .halted (t + 1), redir := [] }
  | .tfence => if c.trapped = 0 then s.setFc c1 else fault 0x30 c.vstat.toNat c.sp.vtrapen.toNat 0
  | .phint => startPhint s
  | .cdopen => startCdopen s
  | .cdclose => startCdclose s
  | .ctrig => startCtrig s
  | .chk =>
    if x.m = 0 then if s.fr.clk.ssc = b then s.setFc c1 else fault 0x10 2 b s.fr.clk.ssc
    else if c.sp.notify.getLsbD (b % 64) then s.setFc c1 else fault 0x10 3 (b % 64) c.sp.notify.toNat
  | .guard =>
    if guardBad a b then fault 0x21 (a % 2 ^ 33) (k % 2 ^ 29) (b / 4 % 2)
    else s.setFc (c1.land { due := t + 1, trig := t, tgt := .special (0x30 + b % 4) (BitVec.ofNat 64 (guardValue a b k)) true })
  | .watch => s.setFc (c1.land { due := t + 1, trig := t, tgt := .special (0x38 + b % 2) (BitVec.ofNat 64 (watchValue a b)) true })
  | .brk => fault 0x42 (b % 2 ^ 16) 0 0
  | .sysreq => fault 0x43 (b % 2 ^ 16) a k

end Sys2Proof.Machine
end

