-- ==== Sys2Proof/Machine/Moves.lean ====
section
/-! DEFINITION. The effect of a move of the acting core in the present stitch: plain moves, triggers, compact ops, idle moves and nops
(spec/03_core.md R65 to R71; spec/06_encoding.md R146 to R160). BUNDLE_ISSUE makes the checks of R64 over a whole bundle first; a move that is
run by itself makes those that concern it alone. -/
namespace Sys2Proof.Machine

/-- Is the unit of an operation occupied at `t`: by its last trigger (R71), or, for a multiply, by the array (R222)? -/
def Core.opBusy (c : Core) (o : Op) (t : Nat) : Bool :=
  (c.unit o.unit).busy t ||
    (match o with | .mx .mma | .mx .mmas => (c.mx.array t).isSome && !(c.mx.muls.any (fun m => m.trig == t)) | _ => false)
/-- The trigger that occupies the unit, and its occupancy (R354). -/
def Core.occupant (c : Core) (o : Op) (t : Nat) : Nat × Nat :=
  let u := c.unit o.unit
  if u.busy t then (u.trig, u.occ) else match c.mx.array t with | some m => (m.trig, m.steps) | none => (u.trig, u.occ)

/-- The record of UNIT_BUSY (R354). -/
def busyFault (c : Core) (o : Op) (t : Nat) : FaultInfo :=
  { code := 0x03, dst := o.dst, baddr := c.cur, w5 := o.unit.num, w6 := (c.occupant o t).1, w7 := (c.occupant o t).2 }

/-- The record of ILLEGAL_MOVE (R354): rule 1 for an encoding, 2, 4 and 5 for an operand value. -/
def illegalFault (c : Core) (dst rule idx enc val : Nat) : FaultInfo :=
  { code := 0x01, dst := dst, baddr := c.cur, w5 := enc, w6 := rule * 2 ^ 8 + idx, w7 := val }

/-- The operand value that makes an operation illegal: rule of R354 and the value (R77, R205, R206, R247). `b` is the value moved to the trigger
and `ctl` what o0 holds. -/
def operandBad (o : Op) (r : Region) (id : Nat) (c : Core) (b ctl : Nat) : Option (Nat × Nat) :=
  match o with
  | .cr _ => if (crRead r id c (b % 2 ^ 12)).isNone then some (2, b % 2 ^ 64) else none
  | .vp .cvt => if (cvtCtl ctl).isNone then some (4, ctl % 2 ^ 64) else none
  | .vp .cvtEf => if (cvtEfCtl ctl).isNone then some (4, ctl % 2 ^ 64) else none
  | .xf .amon => if amonBad (b % 2 ^ 64) then some (5, b % 2 ^ 64) else none
  | _ => none

/-- Start an operation whose ports are written. -/
def startOp (o : Op) (x : Trig) (s : State) : State :=
  match o with
  | .ia u o => startIa u.unit o s
  | .im o => startIm o s
  | .ls o => startLs o x s
  | .vx o => startVx o x s
  | .vp o => startVp o x s
  | .mx o => startMx o s
  | .xf o => startXf o x s
  | .br o => startBr o s
  | .sy o => startSy o x s
  | .tg o => startTg o s
  | .cr o => startCr o s

/-- The move index of the move at the head of the queue cannot be known once it has issued; a fault from an operand value records the index of
the move within its bundle (R354), found by its address. -/
def moveIndex (c : Core) (o : Op) : Nat :=
  ((cutBundle c.imem 6 c.cur).findIdx? (fun p =>
    match parseMove p.2 with
    | some (.transport _ (.trig q) _ _ _ _ _) => decide (q = o)
    | some (.short _ (.trig q) _) => decide (q = o)
    | some (.imm (.trig q) _ _) => decide (q = o)
    | some (.long (.trig q) _ _ _) => decide (q = o)
    | _ => false)).getD 0

/-- A trigger move (R66): a failing operand value leaves the port unwritten (R160). -/
def runTrigger (o : Op) (b : Nat) (m : BitVec 3) (gm : BitVec 64) (z : Bool) (ptr : Option (Fin 8)) (enc : Nat) (s : State) : State :=
  let c := s.fc
  if c.opBusy o s.sc then s.raiseHere (busyFault c o s.sc)
  else match operandBad o s.fr s.focus.core c b (c.unit o.unit).o0.toNat with
    | some (rule, v) => s.raiseHere (illegalFault c o.dst rule (moveIndex c o) enc v)
    | none =>
      let s1 := s.modFc (fun c => c.writePort o.unit 1 b)
      startOp o { o := o, b := b, m := m, gm := gm, z := z, ptr := ptr } s1

/-- The pointer register that a `+` form names (R120). -/
def ptrOf (o : Op) (m : BitVec 3) (x : Src) : Option (Fin 8) := if o.postInc m then (match x with | .p n => some n | _ => none) else none

/-- Run one move. -/
def runMove (mv : Move) (s : State) : State :=
  let c := s.fc
  let all : BitVec 64 := BitVec.allOnes 64
  let enc := encodeMove mv
  if !mv.legal then s.raiseHere (illegalFault c 0 1 0 enc 0)
  else match mv with
    | .short x (.plain d) _ => movePlain (ShortDst.plain d) (c.src x.wide) s
    | .short x (.trig o) _ => runTrigger o (c.src x.wide) 0 all false none enc s
    | .compact o vd vs _ =>
      if c.opBusy (compactOp o.val) s.sc then s.raiseHere (busyFault c (compactOp o.val) s.sc)
      else startCompact o.val (Fin.ofNat 32 vd.toNat) (Fin.ofNat 32 vs.toNat) s
    | .transport x (.plain d) _ _ _ _ _ => movePlain d (c.src x) s
    | .transport x (.trig o) q k z m _ => runTrigger o (c.src x) m (if q then c.maskBits k else all) z (ptrOf o m x) enc s
    | .imm (.plain d) x _ => movePlain d (immValue x) s
    | .imm (.trig o) x _ => runTrigger o (immValue x) 0 all false none enc s
    | .long (.plain d) p x _ => movePlain d (longValue p x) s
    | .long (.trig o) p x _ => runTrigger o (longValue p x) 0 all false none enc s
    | .idle n _ => s.modFc (fun c => { c with issue := c.issue.idleFor s.sc n.toNat })
    | .nop _ => s

end Sys2Proof.Machine
end

