-- ==== Sys2Proof/Machine/BrMoves.lean ====
section
/-! DEFINITION. Meanings: triggers of br (spec/07_scalar_ops.md R179, R180). Each is the shared effect of its move (Moves.lean). -/
namespace Sys2Proof.Machine

/-- BR_JMP (R180): Jump to an absolute target. -/
def execBrJmp (src : Src) (e : Bool) (s : State) : Out := .next (runMove (.transport src (.trig (.br .jmp)) false 0 false 0 e) s)

/-- BR_JR (R180): Jump relative to the bundle. -/
def execBrJr (src : Src) (e : Bool) (s : State) : Out := .next (runMove (.transport src (.trig (.br .jr)) false 0 false 0 e) s)

/-- BR_BZ (R180): Branch if b is zero. -/
def execBrBz (src : Src) (e : Bool) (s : State) : Out := .next (runMove (.transport src (.trig (.br .bz)) false 0 false 0 e) s)

/-- BR_BNZ (R180): Branch if b is non-zero. -/
def execBrBnz (src : Src) (e : Bool) (s : State) : Out := .next (runMove (.transport src (.trig (.br .bnz)) false 0 false 0 e) s)

/-- BR_BLTZ (R180): Branch if b is negative. -/
def execBrBltz (src : Src) (e : Bool) (s : State) : Out := .next (runMove (.transport src (.trig (.br .bltz)) false 0 false 0 e) s)

/-- BR_BGEZ (R180): Branch if b is non-negative. -/
def execBrBgez (src : Src) (e : Bool) (s : State) : Out := .next (runMove (.transport src (.trig (.br .bgez)) false 0 false 0 e) s)

/-- BR_BEQ (R180): Branch if b equals c. -/
def execBrBeq (src : Src) (e : Bool) (s : State) : Out := .next (runMove (.transport src (.trig (.br .beq)) false 0 false 0 e) s)

/-- BR_CALL (R180): Call an absolute target, landing the return address. -/
def execBrCall (src : Src) (e : Bool) (s : State) : Out := .next (runMove (.transport src (.trig (.br .call)) false 0 false 0 e) s)

/-- BR_CALLR (R180): Call a relative target. -/
def execBrCallr (src : Src) (e : Bool) (s : State) : Out := .next (runMove (.transport src (.trig (.br .callr)) false 0 false 0 e) s)

/-- BR_RET (R180): Return to the address in br.r. -/
def execBrRet (src : Src) (e : Bool) (s : State) : Out := .next (runMove (.transport src (.trig (.br .ret)) false 0 false 0 e) s)

/-- BR_LOOP (R180): Decrement a count and branch while it is non-zero. -/
def execBrLoop (src : Src) (e : Bool) (s : State) : Out := .next (runMove (.transport src (.trig (.br .loop)) false 0 false 0 e) s)

/-- BR_JMP_SHORT (R180): Short form of br.jmp. -/
def execBrJmpShort (src : ShortSrc) (e : Bool) (s : State) : Out := .next (runMove (.short src (.trig (.br .jmp)) e) s)

/-- BR_JR_SHORT (R180): Short form of br.jr. -/
def execBrJrShort (src : ShortSrc) (e : Bool) (s : State) : Out := .next (runMove (.short src (.trig (.br .jr)) e) s)

/-- BR_BZ_SHORT (R180): Short form of br.bz. -/
def execBrBzShort (src : ShortSrc) (e : Bool) (s : State) : Out := .next (runMove (.short src (.trig (.br .bz)) e) s)

/-- BR_BNZ_SHORT (R180): Short form of br.bnz. -/
def execBrBnzShort (src : ShortSrc) (e : Bool) (s : State) : Out := .next (runMove (.short src (.trig (.br .bnz)) e) s)

/-- BR_BLTZ_SHORT (R180): Short form of br.bltz. -/
def execBrBltzShort (src : ShortSrc) (e : Bool) (s : State) : Out := .next (runMove (.short src (.trig (.br .bltz)) e) s)

/-- BR_BGEZ_SHORT (R180): Short form of br.bgez. -/
def execBrBgezShort (src : ShortSrc) (e : Bool) (s : State) : Out := .next (runMove (.short src (.trig (.br .bgez)) e) s)

/-- BR_BEQ_SHORT (R180): Short form of br.beq. -/
def execBrBeqShort (src : ShortSrc) (e : Bool) (s : State) : Out := .next (runMove (.short src (.trig (.br .beq)) e) s)

/-- BR_CALL_SHORT (R180): Short form of br.call. -/
def execBrCallShort (src : ShortSrc) (e : Bool) (s : State) : Out := .next (runMove (.short src (.trig (.br .call)) e) s)

/-- BR_CALLR_SHORT (R180): Short form of br.callr. -/
def execBrCallrShort (src : ShortSrc) (e : Bool) (s : State) : Out := .next (runMove (.short src (.trig (.br .callr)) e) s)

/-- BR_RET_SHORT (R180): Short form of br.ret. -/
def execBrRetShort (src : ShortSrc) (e : Bool) (s : State) : Out := .next (runMove (.short src (.trig (.br .ret)) e) s)

/-- BR_LOOP_SHORT (R180): Short form of br.loop. -/
def execBrLoopShort (src : ShortSrc) (e : Bool) (s : State) : Out := .next (runMove (.short src (.trig (.br .loop)) e) s)

end Sys2Proof.Machine
end

