-- ==== Sys2Proof/Machine/CompactMoves.lean ====
section
/-! DEFINITION. Meanings: compact vector ops (spec/06_encoding.md R148; spec/08_vector_ops.md R212). Each is the shared effect of its move (Moves.lean). -/
namespace Sys2Proof.Machine

/-- FADD_COMPACT (R148): Compact FP32 add: vd := vd + vs, with write-back. -/
def execFaddCompact (vd : BitVec 5) (vs : BitVec 4) (e : Bool) (s : State) : Out := .next (runMove (.compact 0 vd vs e) s)

/-- FSUB_COMPACT (R148): Compact FP32 subtract. -/
def execFsubCompact (vd : BitVec 5) (vs : BitVec 4) (e : Bool) (s : State) : Out := .next (runMove (.compact 1 vd vs e) s)

/-- FMUL_COMPACT (R148): Compact FP32 multiply. -/
def execFmulCompact (vd : BitVec 5) (vs : BitVec 4) (e : Bool) (s : State) : Out := .next (runMove (.compact 2 vd vs e) s)

/-- FMIN_COMPACT (R148): Compact FP32 minimum. -/
def execFminCompact (vd : BitVec 5) (vs : BitVec 4) (e : Bool) (s : State) : Out := .next (runMove (.compact 3 vd vs e) s)

/-- FMAX_COMPACT (R148): Compact FP32 maximum. -/
def execFmaxCompact (vd : BitVec 5) (vs : BitVec 4) (e : Bool) (s : State) : Out := .next (runMove (.compact 4 vd vs e) s)

/-- BADD_COMPACT (R148): Compact BF16 add. -/
def execBaddCompact (vd : BitVec 5) (vs : BitVec 4) (e : Bool) (s : State) : Out := .next (runMove (.compact 5 vd vs e) s)

/-- BMUL_COMPACT (R148): Compact BF16 multiply. -/
def execBmulCompact (vd : BitVec 5) (vs : BitVec 4) (e : Bool) (s : State) : Out := .next (runMove (.compact 6 vd vs e) s)

/-- ADD_COMPACT (R148): Compact INT32 add. -/
def execAddCompact (vd : BitVec 5) (vs : BitVec 4) (e : Bool) (s : State) : Out := .next (runMove (.compact 7 vd vs e) s)

/-- SUB_COMPACT (R148): Compact INT32 subtract. -/
def execSubCompact (vd : BitVec 5) (vs : BitVec 4) (e : Bool) (s : State) : Out := .next (runMove (.compact 8 vd vs e) s)

/-- MAX_COMPACT (R148): Compact INT32 maximum. -/
def execMaxCompact (vd : BitVec 5) (vs : BitVec 4) (e : Bool) (s : State) : Out := .next (runMove (.compact 9 vd vs e) s)

/-- MIN_COMPACT (R148): Compact INT32 minimum. -/
def execMinCompact (vd : BitVec 5) (vs : BitVec 4) (e : Bool) (s : State) : Out := .next (runMove (.compact 10 vd vs e) s)

/-- AND_COMPACT (R148): Compact bitwise AND. -/
def execAndCompact (vd : BitVec 5) (vs : BitVec 4) (e : Bool) (s : State) : Out := .next (runMove (.compact 11 vd vs e) s)

/-- OR_COMPACT (R148): Compact bitwise OR. -/
def execOrCompact (vd : BitVec 5) (vs : BitVec 4) (e : Bool) (s : State) : Out := .next (runMove (.compact 12 vd vs e) s)

/-- XOR_COMPACT (R148): Compact bitwise XOR. -/
def execXorCompact (vd : BitVec 5) (vs : BitVec 4) (e : Bool) (s : State) : Out := .next (runMove (.compact 13 vd vs e) s)

/-- ANDN_COMPACT (R148): Compact bitwise AND NOT. -/
def execAndnCompact (vd : BitVec 5) (vs : BitVec 4) (e : Bool) (s : State) : Out := .next (runMove (.compact 14 vd vs e) s)

/-- PERM_COMPACT (R148): Compact 32-bit lane permute. -/
def execPermCompact (vd : BitVec 5) (vs : BitVec 4) (e : Bool) (s : State) : Out := .next (runMove (.compact 15 vd vs e) s)

end Sys2Proof.Machine
end

