-- ==== Sys2Proof/Machine/Puzil.lean ====
section
/-! DEFINITION. Puzil engines (spec/11_puzil.md R268 to R297): op words and the stitches at which they execute, chunk addresses, and the reduce
ALU. -/
namespace Sys2Proof.Machine

/-! ## Op words (R278 to R280, R294) -/

/-- The fields of a data-format op word. -/
structure PzOp where
  opc  : Nat
  step : Nat
  ofs  : Nat
  a    : Nat := 0
  b    : Nat := 0
  d    : Nat := 0
  len  : Nat := 0
  x    : Nat := 0
deriving DecidableEq, Repr

/-- Read a data-format word. -/
def pzOf (w : Nat) : PzOp :=
  { opc := bitsOf w 127 124, step := bitsOf w 123 116, ofs := bitsOf w 115 92, a := bitsOf w 91 70, b := bitsOf w 69 48, d := bitsOf w 47 26,
    len := bitsOf w 25 18, x := bitsOf w 14 0 }

/-- The bytes of a chunk. -/
def PzOp.bytes (o : PzOp) : Nat := 32 * (o.len + 1)

/-- The iterations of an op of offset `o` that execute at offset `at_`: COUNT iterations OSTRIDE apart. -/
def iterAt (o stride count at_ : Nat) : List Nat :=
  if stride = 0 then if o = at_ then List.range count else []
  else if o ≤ at_ ∧ (at_ - o) % stride = 0 ∧ (at_ - o) / stride < count then [(at_ - o) / stride] else []

/-- The op words that execute at an offset: word index and iteration. `left`, `count` and `stride` are those of the loop being walked. -/
def opsGo (prog : Nat → Nat) (at_ : Nat) : Nat → Nat → Nat → Nat → Nat → List (Nat × Nat)
  | 0, _, _, _, _ => []
  | n + 1, k, left, count, stride =>
    let w := prog k
    if bitsOf w 127 124 = 13 then opsGo prog at_ n (k + 1) (bitsOf w 91 84) (bitsOf w 83 68) (bitsOf w 67 44)
    else (iterAt (bitsOf w 115 92) (if left = 0 then 0 else stride) (if left = 0 then 1 else count) at_).map (fun i => (k, i)) ++
      opsGo prog at_ n (k + 1) (left - 1) count stride
def opsAt (prog : Nat → Nat) (words at_ : Nat) : List (Nat × Nat) := opsGo prog at_ words 0 0 0 0

/-- The loop word that governs a word, if it stands in a body. -/
def loopOf (prog : Nat → Nat) (k : Nat) : Option Nat :=
  ((List.range k).filter (fun j => bitsOf (prog j) 127 124 == 13 && decide (k - j ≤ bitsOf (prog j) 91 84))).getLast?

/-- The bits of UNIT or SUNIT of a chunk address (R279). -/
def unitBits (x : Nat) : Nat := if x.testBit 21 then 16 else 21
/-- `adv(X, i)` of R294 applied to UNIT or SUNIT of a chunk address, before it is cut to the field. -/
def advRaw (x i loopw : Nat) : Int :=
  let u := x % 2 ^ unitBits x
  let st := sval 22 (bitsOf loopw 43 22)
  let wrap := bitsOf loopw 21 0
  if wrap = 0 then Int.ofNat u + Int.ofNat i * st else Int.ofNat (u - u % wrap) + (Int.ofNat (u % wrap) + Int.ofNat i * st) % Int.ofNat wrap
/-- The chunk address that an iteration uses (R294). -/
def advAddr (x i loopw : Nat) : Nat := x - x % 2 ^ unitBits x + wrapTo (unitBits x) (advRaw x i loopw)

/-- The op word as iteration `i` of its body runs it (R294). -/
def opWordAt (prog : Nat → Nat) (k i : Nat) : Nat :=
  let w := prog k
  match loopOf prog k with
  | none => w
  | some j =>
    let lw := prog j
    let adv := bitsOf w 17 15
    let f := fun n x => if adv.testBit n then advAddr x i lw else x
    let o := pzOf w
    o.opc * 2 ^ 124 + (o.step + i) % 256 * 2 ^ 116 + (o.ofs + i * bitsOf lw 67 44) % 2 ^ 24 * 2 ^ 92 + f 0 o.a * 2 ^ 70 + f 1 o.b * 2 ^ 48 +
      f 2 o.d * 2 ^ 26 + w % 2 ^ 26

/-! ## Engines, plans and places -/

/-- A word of an engine's program memory. -/
def State.engWord (s : State) (e k : Nat) : Nat := (mgetD (mgetD s.engines e []) k 0).toNat
/-- The program of a rank. -/
def State.prog (s : State) (rk : Rank) : Nat → Nat := fun k => s.engWord rk.engine (rk.base + k)

def engU (e : Nat) : Nat := e % 96 % 12
def engV (e : Nat) : Nat := e % 96 / 12
/-- The id of an engine: the class 3 window of its bridge (spec/14_system_state.md R306): an MH keeps its place, and an MV goes with its column of dies
(spec/01_panel.md R19, R21). -/
def engineId (m : Maps) (e : Nat) : Nat := 3 * 2 ^ 36 + (if e < 96 then engU e else m.dieCol (engU e)) * 2 ^ 32 + engV e * 2 ^ 29 + e / 96 * 2 ^ 28
/-- The base of an engine's local memory: a near address for MH, a key of the MV store for MV (R268). -/
def engBase (e : Nat) : Nat := if e < 96 then engV e * 2 ^ 30 + engU e * 2 ^ 26 else (engV e * 12 + engU e) * 2 ^ 26

/-- Where a chunk is. -/
inductive PzPlace where
  | near (a : Nat) | mv (a : Nat) | win (core : Nat) (a : Nat) | none
deriving DecidableEq, Repr

/-- The place that a chunk address names (R279). -/
def Rank.place (rk : Rank) (x : Nat) : PzPlace :=
  if x.testBit 21 then
    match mget rk.links (bitsOf x 19 16) with
    | some l => if l.toCore && !l.away then .win l.peer (32 * (x % 2 ^ 16)) else .none
    | none => .none
  else if rk.engine < 96 then .near (engBase rk.engine + 32 * (x % 2 ^ 21)) else .mv (engBase rk.engine + 32 * (x % 2 ^ 21))

/-- The bank number by which NEAR_BANK_ACCESS names a bank: of near memory, or from 8192 on of an MV buffer. -/
def PzPlace.bank : PzPlace → Option Nat
  | .near a => some (a / 2 ^ 20) | .mv a => some (8192 + a / 2 ^ 20) | _ => Option.none

/-- Read a chunk at a place. -/
def State.pzRead (s : State) (d : Descr) (p : PzPlace) (n : Nat) : Chunk :=
  match p with
  | .near a => readChunk s.near s.nearP a n
  | .mv a => readChunk s.mv s.mvP a n
  | .win c a => let k := s.core (d.coreAt c); readChunk k.scr k.scrP a n
  | .none => {}

/-- The chunks that an op reads at its stitch (R282). -/
def PzOp.reads (o : PzOp) : List (Nat × Nat) :=
  match o.opc with
  | 1 => [(o.a, o.bytes)]
  | 3 => [(o.a, o.bytes)]
  | 4 | 5 => [(o.a, o.bytes), (o.b, o.bytes)]
  | 6 | 7 => [(o.a, o.bytes), (o.b, if o.x.testBit 14 then o.bytes else 4 * (o.len + 1))]
  | 8 | 9 => [(o.a, o.bytes)]
  | 10 => [(o.a, 8), (o.b, 8)]
  | _ => []
/-- The chunk that it writes in the stitch in which it executes: only a recv does. -/
def PzOp.nowWrite (o : PzOp) : List (Nat × Nat) := if o.opc = 2 then [(o.d, o.bytes)] else []

/-- The ops of a plan that execute in stitch `s` on this package: rank, word, iteration (R271, R275). A degenerate plan executes only its signals, at
its release (R296). The engines of other packages, whose keys begin at 192, run there. -/
def State.planOps (s : State) (p : Plan) (sc : Nat) : List (Nat × Nat × Nat) :=
  match p.rel with
  | none => []
  | some r =>
    if !p.run || sc < r then []
    else (List.range p.ranks.length).flatMap (fun k =>
      match p.ranks[k]? with
      | none => []
      | some rk =>
        if 192 ≤ rk.engine then []
        else if p.degen then
          if sc = r then ((List.range rk.words).filter (fun w => bitsOf (s.prog rk w) 127 124 == 11)).map (fun w => (k, w, 0)) else []
        else (opsAt (s.prog rk) rk.words (sc - r)).map (fun q => (k, q.1, q.2)))

/-- Every op of the region that executes in stitch `sc`: handle, rank, word, iteration. -/
def State.opsDue (s : State) (r : Region) (sc : Nat) : List (Nat × Nat × Nat × Nat) :=
  r.plans.flatMap (fun p => (s.planOps p sc).map (fun q => (p.handle, q)))

def Region.plan (r : Region) (h : Nat) : Option Plan := r.plans.find? (fun p => p.handle == h)
def Plan.rank (p : Plan) (k : Nat) : Rank := (p.ranks[k]?).getD { engine := 0, base := 0, words := 0 }
def Plan.setRank (p : Plan) (k : Nat) (x : Rank) : Plan := { p with ranks := p.ranks.set k x }
/-- Change a rank of a plan. -/
def Region.modRank (r : Region) (h k : Nat) (f : Rank → Rank) : Region :=
  { r with plans := r.plans.map (fun p => if p.handle = h then p.setRank k (f (p.rank k)) else p) }

/-- An engine access due in a stitch: where, whose, and whether it is a pending write (its due record stays in `writes`). -/
structure PzClaim where
  place  : PzPlace
  handle : Nat
  rank   : Nat
  op     : Option (Nat × Nat)
deriving DecidableEq, Repr

/-- Every engine access of a region in stitch `sc` (R282). -/
def State.pzClaims (s : State) (r : Region) (sc : Nat) : List PzClaim :=
  (s.opsDue r sc).flatMap (fun q =>
    match r.plan q.1 with
    | none => []
    | some p =>
      if p.degen then [] else
        let rk := p.rank q.2.1
        let o := pzOf (opWordAt (s.prog rk) q.2.2.1 q.2.2.2)
        (o.reads ++ o.nowWrite).map (fun c => { place := rk.place c.1, handle := q.1, rank := q.2.1, op := some q.2.2 })) ++
  r.plans.flatMap (fun p => (List.range p.ranks.length).flatMap (fun k =>
    ((p.rank k).writes.filter (fun w => w.due == sc)).map (fun w =>
      { place := match w.window with | some c => .win c w.addr | none => if (p.rank k).engine < 96 then .near w.addr else .mv w.addr,
        handle := p.handle, rank := k, op := none })))

/-- Void an engine access of this stitch (R297). -/
def Region.pzVoid (r : Region) (sc : Nat) (c : PzClaim) : Region :=
  r.modRank c.handle c.rank (fun rk =>
    match c.op with
    | some q => { rk with void := rk.void ++ [q] }
    | none =>
      let hit := fun (w : PWrite) => w.due == sc && (match c.place with | .win k a => w.window == some k && w.addr == a | .near a => w.window.isNone && w.addr == a | .mv a => w.window.isNone && w.addr == a | .none => false)
      { rk with writes := rk.writes.filter (fun w => !hit w) })

/-! ## The reduce ALU (R284 to R291) -/

/-- Element `j` of `w` bits of a chunk. -/
def elemOf (l : List Byte) (w j : Nat) : Nat := bitsAt l (w * j) w
/-- Elements of `w` bits as bytes. -/
def elemBytes (w : Nat) (xs : List Nat) : List Byte := xs.flatMap (fun x => toBytes (w / 8) x)
/-- Results as bytes with their flags. -/
def outOf (w : Nat) (rs : List FR) : List Byte × Flags := (elemBytes w (rs.map FR.val), rs.foldl (fun f r => f ||| r.fl) 0)

/-- copy (R284). -/
def pzCopy (sf df : Nat) (sat : Bool) (a : List Byte) : List Byte × Flags :=
  match Fmt.ofCode sf, Fmt.ofCode df with
  | some S, some D => outOf D.width ((List.range (8 * a.length / S.width)).map (fun j => cvt (elemOf a S.width j) S D .rne sat))
  | _, _ => (a, 0)

/-- One element of reduce (R285): RED 0 add, 1 max, 2 min. -/
def redElem (F : Fmt) (red x y : Nat) : FR :=
  match F with
  | .f f => if red = 0 then fAdd f .rne (f.unpack x) (f.unpack y) else fMinMax f (red = 1) x y
  | .i f =>
    if red = 0 then ⟨(x + y) % 2 ^ f.width, 0⟩
    else if red = 1 then ⟨if f.value x < f.value y then y else x, 0⟩ else ⟨if f.value y < f.value x then y else x, 0⟩
  | .b4 => ⟨0, 0⟩
/-- reduce. -/
def pzReduce (fmt red : Nat) (a b : List Byte) : List Byte × Flags :=
  match Fmt.ofCode fmt with
  | some F => outOf F.width ((List.range (8 * a.length / F.width)).map (fun j => redElem F red (elemOf a F.width j) (elemOf b F.width j)))
  | none => (a, 0)

/-- One B4 block of rqadd (R286). -/
def rqBlock (ty nb : Nat) (a b : List Byte) (j : Nat) : QBlk × Flags :=
  let v := fun (l : List Byte) i => b4Value (l.getD (16 * nb + j) 0).toNat (bitsAt l (128 * j + 4 * i) 4)
  let xs := (List.range 32).map (fun i => fAdd .fp32 .rne (v a i) (v b i))
  (if ty = 4 then qblkAuto (xs.map FR.val) else qblk ty (xs.map FR.val), xs.foldl (fun f r => f ||| r.fl) 0)
/-- rqadd (R286). -/
def pzRqadd (qf ty nb : Nat) (sat : Bool) (a b : List Byte) : List Byte × Flags :=
  if qf = 2 then
    let bs := (List.range nb).map (rqBlock ty nb a b)
    let el := bs.flatMap (fun q => toBytes 16 (pack 4 q.1.codes))
    let sc := bs.map (fun q => BitVec.ofNat 8 q.1.scale)
    (el ++ sc ++ List.replicate (a.length - 17 * nb) 0, bs.foldl (fun f q => f ||| q.1.fl ||| q.2) 0)
  else
    let F : FFmt := if qf = 0 then .e4m3 else .e5m2
    let add := fun x y =>
      match F.unpack x, F.unpack y with
      | .fin n m e, .fin n' m' e' =>
        let b := min e e'
        let v := numOver n m e b + numOver n' m' e' b
        if v = 0 then (⟨F.signPat (zeroSign .rne n n'), 0⟩ : FR) else rndFin F .rne sat (decide (v < 0)) v.natAbs b
      | u, w => fAdd F .rne u w
    outOf 8 ((List.range a.length).map (fun j => add (elemOf a 8 j) (elemOf b 8 j)))

/-- State `j` of a state chunk (R287). -/
def xsAt (l : List Byte) (j : Nat) : XS := XS.unpack (ofBytes ((l.drop (32 * j)).take 32))
/-- States as bytes. -/
def xsBytes (l : List XS) : List Byte := l.flatMap (fun x => toBytes 32 x.pack)
/-- Fold a contribution into a state (R287). -/
def XS.fold (st : XS) (x : Nat) : XS := { st with e := maxExp st.e (fvLog2 (FFmt.fp32.unpack x)), fl := st.fl ||| xsFlags (FFmt.fp32.unpack x) }
/-- expmax (R288). -/
def pzExpmax (n : Nat) (state : Bool) (a b : List Byte) : List Byte :=
  xsBytes ((List.range n).map (fun j =>
    let s := xsAt a j
    let t := if state then let y := xsAt b j; { s with e := maxExp s.e y.e, fl := s.fl ||| y.fl } else s.fold (elemOf b 32 j)
    { t with s := 0 }))
/-- One element of binacc; none where it refuses (R289). -/
def binaccElem (state : Bool) (s : XS) (y : XS) (x : Nat) : Option XS :=
  if state then
    let add := fun (s : XS) => some { s with s := s.s + y.s, fl := s.fl ||| y.fl }
    if s.e = y.e then add s
    else if y.e.isNone && y.s = 0 then add s
    else if s.e.isNone && s.s = 0 then add { s with e := y.e }
    else none
  else
    match fvLog2 (FFmt.fp32.unpack x), s.e with
    | some l, some E => if E < l then none else some { XS.add E s x with e := s.e }
    | some _, none => none
    | none, _ => some { s with fl := s.fl ||| xsFlags (FFmt.fp32.unpack x) }
/-- binacc: the chunk, or the first element refused. -/
def pzBinacc (n : Nat) (state : Bool) (a b : List Byte) : List Byte ⊕ Nat :=
  let rs := (List.range n).map (fun j => binaccElem state (xsAt a j) (xsAt b j) (elemOf b 32 j))
  match rs.findIdx? Option.isNone with
  | some j => .inr j
  | none => .inl (xsBytes (rs.map (fun r => r.getD XS.empty)))
/-- One element of binout: the value of R108, and NV by bits 1 to 3 alone (R290). -/
def binoutElem (st : XS) : FR :=
  let b := fun i => st.fl.getLsbD i
  { st.out with fl := (st.out.fl &&& ~~~fNV) ||| (if b 3 || (b 1 && b 2) then fNV else 0) }
/-- binout (R290). -/
def pzBinout (n : Nat) (a : List Byte) : List Byte × Flags := outOf 32 ((List.range n).map (fun j => binoutElem (xsAt a j)))

/-- One byte of the CRC-64 of R291. -/
def crcByte (c : Nat) (b : Byte) : Nat :=
  (List.range 8).foldl (fun c _ => let d := 2 * c; if c.testBit 63 then (d % 2 ^ 64) ^^^ 0x42f0e1eba9ea3693 else d) (c ^^^ (b.toNat * 2 ^ 56))
/-- digest. -/
def crc64 (l : List Byte) : Nat := l.foldl crcByte 0

/-! ## Executing ops -/

/-- The plan, the rank and the op's word that the focus names, where the op is not voided and no other plan of the region executes an op on the
engine in this stitch (R297). -/
def State.pzHere (s : State) : Option (Plan × Nat × Rank × Nat × Nat) :=
  match s.focus.eng with
  | none => none
  | some (h, k, w, i) => (s.fr.plan h).map (fun p => (p, k, p.rank k, w, i))

/-- Another plan's op on the same engine in this stitch. -/
def State.pzRival (s : State) (p : Plan) (rk : Rank) : Bool :=
  (s.opsDue s.fr s.sc).any (fun q => q.1 != p.handle && (match s.fr.plan q.1 with | some p' => (p'.rank q.2.1).engine == rk.engine | none => false))

/-- The detail of a SLIP of an engine (R354: kind 7), with what was expected in word 6. DESIGN CHOICE (log entry 24): a refusal of binacc has no offset
that it expected, and its element index (R289) stands there. -/
def pzSlip (p : Plan) (o : PzOp) (expected : Nat) : FaultInfo := { code := 0x10, w5 := 7, w6 := expected, w7 := p.handle + o.step * 2 ^ 32 }

/-- Raise a fault at an engine: it is recorded at the region's origin core (R357). -/
def State.pzFault (s : State) (f : FaultInfo) : State := { s with free := s.free + 1 }.raiseOrigin s.focus.rg s.sc f

/-- Read a source that the op uses; poison makes it a fault (R403). -/
def State.pzUse (s : State) (p : PzPlace) (n : Nat) : Chunk ⊕ FaultInfo :=
  let c := s.pzRead s.fr.d p n
  match c.marks with
  | [] => .inl c
  | (i, m) :: _ =>
    let a := match p with | .near a => a | .mv a => a | .win _ a => a | .none => 0
    .inr { code := 0x50, cls := m.cls, w5 := a + i, w6 := (Config.syndrome s.free).toNat, w7 := m.unit }

/-- The core on another package whose window a chunk address names, by a number behind those of this package. -/
def Rank.awayPeer (rk : Rank) (x : Nat) : Option Nat :=
  if x.testBit 21 then ((mget rk.links (bitsOf x 19 16)).filter (fun l => l.toCore && l.away)).map Link.peer else none
/-- Does a chunk address name a window of a core on another package? -/
def Rank.awayWin (rk : Rank) (x : Nat) : Bool := (rk.awayPeer x).isSome
/-- Queue a write of an op's result at `due` (R282). Of one to a core of another package this engine keeps the flags, which join its FLAGS at that
stitch (R270, R284), and not the bytes (log entry 30). -/
def pzWriteTo (p : Plan) (k : Nat) (rk : Rank) (o : PzOp) (due : Nat) (c : Chunk) (fl : Flags) (s : State) : State :=
  let src := if o.opc = 3 ∧ rk.awayWin o.a then some (bitsOf o.a 19 16) else none
  let w : Option PWrite := match rk.place o.d with
    | .win core a => some { due := due, window := some core, addr := a, chunk := c, fl := fl, step := o.step, src := src }
    | .near a => some { due := due, window := none, addr := a, chunk := c, fl := fl, step := o.step, src := src }
    | .mv a => some { due := due, window := none, addr := a, chunk := c, fl := fl, step := o.step, src := src }
    | .none => (rk.awayPeer o.d).map (fun core => { due := due, window := some core, addr := 32 * (o.d % 2 ^ 16), chunk := {}, fl := fl, step := o.step })
  match w with
  | some w => s.modFr (fun r => r.modRank p.handle k (fun rk => { rk with writes := rk.writes ++ [w] }))
  | none => s

/-- The latency of the link that a window address uses, or of a link. -/
def Rank.lam (rk : Rank) (x : Nat) : Nat := match mget rk.links (bitsOf x 19 16) with | some l => l.lam | none => 0

/-- How long after its stitch an op writes its destination (R282); none for one that writes nothing later. -/
def PzOp.lat (o : PzOp) (rk : Rank) : Option Nat :=
  match o.opc with
  | 3 => some (if o.a.testBit 21 then rk.lam o.a else if o.d.testBit 21 then rk.lam o.d else 2)
  | 4 | 6 | 9 => some 4
  | 5 | 7 | 8 => some 6
  | _ => none
/-- An op that does not execute, or that faults, still claims the slot of its destination, for a slot is claimed whether or not the access moves any
byte (spec/05_memory.md R118): a write of no bytes. -/
def pzIdle (o : PzOp) (p : Plan) (k : Nat) (rk : Rank) (s : State) : State :=
  match o.lat rk with | some n => pzWriteTo p k rk o (s.sc + n) {} 0 s | none => s
/-- An op that faults has no effect (R297). -/
def pzFail (o : PzOp) (p : Plan) (k : Nat) (rk : Rank) (f : FaultInfo) (s : State) : State := pzIdle o p k rk (s.pzFault f)

/-- An op that computes one chunk from one or two local chunks. -/
def pzAlu (o : PzOp) (lat : Nat) (f : List Byte → List Byte → List Byte × Flags) (p : Plan) (k : Nat) (rk : Rank) (s : State) : State :=
  let get := fun i => match o.reads[i]? with | some q => s.pzUse (rk.place q.1) q.2 | none => .inl {}
  match get 0, get 1 with
  | .inr e, _ => pzFail o p k rk e s
  | _, .inr e => pzFail o p k rk e s
  | .inl a, .inl b => let r := f a.bytes b.bytes; pzWriteTo p k rk o (s.sc + lat) ⟨r.1, []⟩ r.2 s

/-- Bytes of which a group whose tag failed has carried 1,280, from a place on: those are poisoned (spec/18_links_host_boot.md R389). -/
def Chunk.spoilt (c : Chunk) (o : Nat) (p : Poison) : Chunk :=
  { c with marks := ((List.range c.bytes.length).filter (fun i => decide (o ≤ i) && decide (i < o + 1280))).map (fun i => (i, p)) }
/-- A chunk that another package has sent, as a group whose tag failed leaves it (R389): void in containment mode, with poisoned bytes in skid mode. -/
def groupChunk (bad : Option (Option (Nat × Poison))) (c : Chunk) : Chunk :=
  match bad with
  | none => c
  | some none => {}
  | some (some (o, p)) => c.spoilt o p

/-- The effect of an op at its stitch (R282 to R293). -/
def pzExec (o : PzOp) (p : Plan) (k : Nat) (rk : Rank) (s : State) : State :=
  let t := s.sc
  match o.opc with
  | 1 => -- send
    match mget rk.links (bitsOf o.x 14 11) with
    | some l =>
      let w : PWrite := { due := t + l.lam, window := none, addr := k, chunk := s.pzRead s.fr.d (rk.place o.a) o.bytes, step := o.step }
      s.modFr (fun r => r.modRank p.handle l.peer (fun q => { q with inbox := q.inbox ++ [w] }))
    | none => s
  | 2 => -- recv: the chunk of the paired send, from the rank that the link names
    match mget rk.links (bitsOf o.x 14 11) with
    | some l =>
      if l.away then pzWriteTo p k rk o t (groupChunk (mget rk.bad t) (s.awayChunk o.bytes)) 0 s.fresh.2 else
      match rk.inbox.find? (fun w => w.due == t && w.addr == l.peer) with
      | some w =>
        let s1 := s.modFr (fun r => r.modRank p.handle k (fun q => { q with inbox := q.inbox.filter (fun v => !(v.due == t && v.addr == l.peer)) }))
        pzWriteTo p k rk o t w.chunk 0 s1
      | none => s
    | none => s
  | 3 => -- copy
    let sf := bitsOf o.x 14 11
    let df := bitsOf o.x 10 7
    let due := t + (o.lat rk).getD 2
    if rk.awayWin o.a then
      let r := pzCopy sf df (o.x.testBit 6) (s.awayChunk o.bytes).bytes
      pzWriteTo p k rk o due ⟨r.1, []⟩ r.2 s.fresh.2
    else if sf = df then
      let c := s.pzRead s.fr.d (rk.place o.a) o.bytes
      let r := pzCopy sf df (o.x.testBit 6) c.bytes
      pzWriteTo p k rk o due ⟨r.1, c.marks⟩ r.2 s
    else match s.pzUse (rk.place o.a) o.bytes with
      | .inr e => pzFail o p k rk e s
      | .inl c => let r := pzCopy sf df (o.x.testBit 6) c.bytes; pzWriteTo p k rk o due ⟨r.1, []⟩ r.2 s
  | 4 => pzAlu o 4 (pzReduce (bitsOf o.x 14 11) (bitsOf o.x 10 9)) p k rk s
  | 5 => pzAlu o 6 (pzRqadd (bitsOf o.x 14 13) (bitsOf o.x 12 10) (bitsOf o.x 8 0) (o.x.testBit 9)) p k rk s
  | 6 => pzAlu o 4 (fun a b => (pzExpmax (o.len + 1) (o.x.testBit 14) a b, 0)) p k rk s
  | 7 => -- binacc
    match s.pzUse (rk.place o.a) o.bytes, s.pzUse (rk.place o.b) (if o.x.testBit 14 then o.bytes else 4 * (o.len + 1)) with
    | .inr e, _ => pzFail o p k rk e s
    | _, .inr e => pzFail o p k rk e s
    | .inl a, .inl b =>
      match pzBinacc (o.len + 1) (o.x.testBit 14) a.bytes b.bytes with
      | .inr j => pzFail o p k rk (pzSlip p o j) s
      | .inl c => pzWriteTo p k rk o (t + 6) ⟨c, []⟩ 0 s
  | 8 => pzAlu o 6 (fun a _ => pzBinout (o.len + 1) a) p k rk s
  | 9 => pzAlu o 4 (fun a _ => (toBytes 8 (crc64 a), 0)) p k rk s
  | 10 => -- dcmp
    match s.pzUse (rk.place o.a) 8, s.pzUse (rk.place o.b) 8 with
    | .inr e, _ => s.pzFault e
    | _, .inr e => s.pzFault e
    | .inl a, .inl b =>
      if a.bytes = b.bytes then s
      else s.pzFault { code := 0x52, w5 := p.handle + o.step * 2 ^ 32 + k * 2 ^ 40 + bitsOf o.x 14 7 * 2 ^ 48, w6 := ofBytes a.bytes, w7 := ofBytes b.bytes }
  | 11 => -- signal
    match mget rk.links (bitsOf o.x 14 11) with
    | some l =>
      if l.away then s else
      let fl := rk.writes.foldl (fun f w => if w.due = t then f ||| w.fl else f) rk.fl
      let tok : PToken := { due := t + l.lam, core := l.peer, tok := bitsOf o.x 10 5, fl := if p.degen then 0 else fl }
      s.modFr (fun r => r.modRank p.handle k (fun q => { q with tokens := q.tokens ++ [tok] }))
    | none => s
  | 12 => -- wait
    let late := rk.writes.any (fun w => decide (t < w.due)) || rk.tokens.any (fun w => decide (t < w.due))
    if late then s.pzFault (pzSlip p o o.ofs) else s
  | _ => s

/-- The key under which `mvP` marks a poisoned word of an engine's program memory: above every address of an MV buffer (R358 class 8; log entry 33). -/
def opKey (e k : Nat) : Nat := 2 ^ 48 + 4096 * e + k
/-- The poisoned value that an op uses to execute at all: its word, or the links and state of its engine (R358 classes 8 and 15). -/
def State.opMark (s : State) (rk : Rank) (w : Nat) : Option (Nat × Poison) :=
  ((mget s.mvP (opKey rk.engine (rk.base + w))).map (fun m => (opKey rk.engine (rk.base + w), m))).orElse
    (fun _ => (mget s.fr.badP (2048 + rk.engine)).map (fun m => (2048 + rk.engine, m)))

/-- Run an op of the engine in focus. A rival op on the engine makes neither execute; the first of them records the SLIP (R297). The slots of their
destinations stay claimed (R118). -/
def runPz (o : PzOp) (s : State) : State :=
  match s.pzHere with
  | none => s
  | some (p, k, rk, w, i) =>
    if s.pzRival p rk then
      let first := ((s.opsDue s.fr s.sc).filter (fun q => match s.fr.plan q.1 with | some p' => (p'.rank q.2.1).engine == rk.engine | none => false)).head?
      pzIdle o p k rk (if first = some (p.handle, k, w, i) then s.pzFault (pzSlip p o o.ofs) else s)
    else if rk.void.contains (w, i) then pzIdle o p k rk s
    else match s.opMark rk w with
      | some (a, m) => pzFail o p k rk { code := 0x50, cls := m.cls, w5 := a, w6 := (Config.syndrome s.free).toNat, w7 := m.unit } s
      | none => pzExec o p k rk s

end Sys2Proof.Machine
end

