-- ==== Sys2Proof/Machine/Walk.lean ====
section
/-! DEFINITION. The walk of a page table (spec/14_system_state.md R318 to R321), and the far watchpoints of regions on the writes of other agents
(spec/05_memory.md R141). -/
namespace Sys2Proof.Machine

/-! ## Page tables (R317 to R321) -/

/-- The protected pages, when some H-die or byte is not in order and they are needed to read a table. -/
def State.knownProt (s : State) : List (BitVec 64) :=
  if s.hdies.lost.isEmpty && s.hdies.rebuild.isEmpty && s.hdies.spares.isEmpty && s.farP.isEmpty then [] else s.protPages

/-- Does a partition own the offset block of a byte of a logical H-die (R317)? -/
def State.owns (s : State) (part h off : Nat) : Bool :=
  decide (h < 24) && decide (off / 2 ^ 30 < 120) && (mgetD s.hdies.own (128 * s.hPhys h + off / 2 ^ 30) 0).toNat % 32 == 16 + part
/-- Does it own `n` bytes from an offset? -/
def State.ownsAll (s : State) (part h off n : Nat) : Bool :=
  (List.range ((off + n - 1) / 2 ^ 30 - off / 2 ^ 30 + 1)).all (fun i => s.owns part h ((off / 2 ^ 30 + i) * 2 ^ 30))

/-- The checks of R321 on a leaf at a level. -/
def State.leafValid (s : State) (part level : Nat) (l : BitVec 64) : Bool :=
  let z := leafSize l
  let n := if leafProt l then 2 ^ (z - 1) else 2 ^ z
  let x := l.toNat
  (match level with | 4 => decide (16 ≤ z) && decide (z ≤ 24) | 3 => decide (25 ≤ z) && decide (z ≤ 33) | 2 => decide (34 ≤ z) && decide (z ≤ 35) | _ => false) &&
  bitsOf x 40 37 == 0 && bitsOf x 15 2 == 0 && leafOfs l % n == 0 &&
  (!leafProt l || (decide (17 ≤ z) && leafOwn l != leafHb l && leafOwn l != leafHc l && leafHb l != leafHc l)) &&
  (leafDies l).all (fun h => s.ownsAll part h (leafOfs l) n)

/-- The walk from a table at a level: the leaf, when the page is valid. -/
def State.walkGo (s : State) (part va : Nat) (known : List (BitVec 64)) : Nat → Nat → Option (BitVec 64)
  | 0, _ => none
  | n + 1, table =>
    let level := 4 - n
    let a := table + 8 * (va / 2 ^ (43 - 9 * (level - 1)) % 512)
    if !s.owns part (fpaDie a) (fpaOfs a) then none
    else match s.tableEntry known a with
      | none => none
      | some e =>
        if leafType e = 1 then
          if bitsOf e.toNat 63 42 = 0 ∧ bitsOf e.toNat 11 2 = 0 then s.walkGo part va known n (bitsOf e.toNat 41 12 * 2 ^ 12) else none
        else if leafType e = 2 && s.leafValid part level e then some e
        else none
/-- The walk of a partition's table for a far virtual address; none where the page is invalid (R321). -/
def State.walk (s : State) (part va : Nat) : Option (BitVec 64) := s.walkGo part va s.knownProt 4 (s.partRoot part)

/-- The table entries that a walk reads, as address and length. -/
def State.walkReadsGo (s : State) (part va : Nat) (known : List (BitVec 64)) : Nat → Nat → List (Nat × Nat)
  | 0, _ => []
  | n + 1, table =>
    let a := table + 8 * (va / 2 ^ (43 - 9 * (3 - n)) % 512)
    if !s.owns part (fpaDie a) (fpaOfs a) then []
    else (a, 8) :: (match s.tableEntry known a with
      | some e => if leafType e = 1 ∧ bitsOf e.toNat 63 42 = 0 ∧ bitsOf e.toNat 11 2 = 0 then s.walkReadsGo part va known n (bitsOf e.toNat 41 12 * 2 ^ 12) else []
      | none => [])

/-! ## Watchpoints of regions on writes of other agents (R141) -/

/-- The first byte of a write of `n` bytes at `a` that lies in the range of `len` bytes at `base`; an empty range holds none (spec/03_core.md R82). -/
def firstIn (base len a n : Nat) : Option Nat := if 0 < len ∧ 0 < n ∧ base < a + n ∧ a < base + len then some (max a base) else none
/-- The first byte and length of a watchpoint. -/
def watchRange (w : W64) : Nat × Nat :=
  let z := 2 ^ min 6 (bitsOf w.toNat 60 58)
  (bitsOf w.toNat 51 0 / z * z, z)

/-- The bytes of a write at the H-dies: logical H-die, offset, length. -/
abbrev PhysRun := Nat × Nat × Nat

/-- The first byte of the range of a far watchpoint of a partition's region that a write touches, as a far virtual address. -/
def State.watchPhys (s : State) (part : Nat) (w : W64) (rs : List PhysRun) : Option Nat :=
  if w.getLsbD 63 && bitsOf w.toNat 62 61 == 2 then
    let (a, z) := watchRange w
    match s.walk part a with
    | some l =>
      (List.range z).findSome? (fun i =>
        let p := leafLoc l ((a + i) % 2 ^ leafSize l)
        if rs.any (fun r => r.1 == p.1 && decide (r.2.1 ≤ p.2) && decide (p.2 < r.2.1 + r.2.2)) then some (a + i) else none)
    | none => none
  else none

/-- WATCH in every released or held region but `except` for one write of another agent, once for each watchpoint that it meets. -/
def State.watchOutside (s : State) (except : Option Nat) (rs : List PhysRun) (cls ident : Nat) : State :=
  s.regions.foldl (fun t r =>
    if some r.1 = except ∨ (r.2.d.state ≠ 2 ∧ r.2.d.state ≠ 3) then t
    else r.2.d.coreIds.foldl (fun t id =>
      (s.core id).sp.watch.toList.foldl (fun t w =>
        match s.watchPhys r.2.d.part w rs with
        | some a => t.raise r.1 id r.2.clk.sc { code := 0x41, cls := cls, w5 := ident, w6 := a }
        | none => t) t) t) s

/-! ## REBUILD causes (spec/17_program_recovery.md R378) -/

/-- A REBUILD cause of a region for a lost H-die; one for each lost H-die, with the earliest stitch (R378). `wr` marks that a write is due
there, so that the region rolls back (R368 row 7). -/
def State.rebuildCause (s : State) (rg cs phys : Nat) (wr : Bool) : State :=
  let r := s.rgn rg
  if r.seg.causes.any (fun c => c.code == cREBUILD && c.tag == phys && !c.resolved) then
    if wr then s.setRgn rg { r with seg := { r.seg with causes := r.seg.causes.map (fun c => if c.code = cREBUILD ∧ c.tag = phys then { c with cls := 1 } else c) } }
    else s
  else s.setRgn rg (r.addCause { code := cREBUILD, cls := if wr then 1 else 0, cs := r.stamp cs, tag := phys })

/-- REBUILD for each lost H-die among those of a beat. -/
def State.lostDue (s : State) (rg cs : Nat) (hs : List Nat) (wr : Bool) : State :=
  hs.foldl (fun s h => if s.hGone h then s.rebuildCause rg cs (s.hPhys h) wr else s) s

end Sys2Proof.Machine
end

