-- ==== Sys2Proof/Machine/Slots.lean ====
section
/-! DEFINITION. Bank slots (spec/05_memory.md R118, R124; spec/10_transfer_sync_ops.md R241, R250): the accesses that claim a scratchpad or near
bank in a stitch, conflicts, the service of a slot, beats that land, and guards and watchpoints (R140 to R142). -/
namespace Sys2Proof.Machine

/-! ## Guards and watchpoints (spec/03_core.md R82; R140 to R142) -/

/-- Where a write meets a guard. -/
def guardHit (g : W64) (near : Bool) (a n : Nat) : Option Nat :=
  if g.getLsbD 63 && g.getLsbD 62 == near then firstIn (bitsOf g.toNat 32 0) (bitsOf g.toNat 61 33) a n else none
/-- Where a write meets a watchpoint of its space. -/
def watchHit (w : W64) (space a n : Nat) : Option Nat :=
  if w.getLsbD 63 && bitsOf w.toNat 62 61 == space then firstIn (watchRange w).1 (watchRange w).2 a n else none

/-- The writer of a write: the core that issued it, if any, whether its guards do not see it, the writer class and identity towards itself and
towards other cores, and the trigger (R142; log entry 20). -/
structure Writer where
  core   : Option Nat := none
  exempt : Bool := false
  own    : Nat
  ident  : Nat := 0
  other  : Nat := own
  identO : Nat := ident
  dst    : Nat := 0
  baddr  : Nat := 0
deriving DecidableEq, Repr

/-! The identity words of R142. DESIGN CHOICE (log entry 20): the rule lists the parts of an identity and gives no layout; these are the model's. -/

/-- An operation or unit of the core itself and its stitch: the stitch in bits 47 to 0, the DST or unit number above. -/
def identOp (what t : Nat) : Nat := what * 2 ^ 48 + t
/-- Another core of the region: its logical y in bits 31 to 24, its x in bits 23 to 16, and below them the route, or 2^15 + the DST of the operation. -/
def identCore (id what : Nat) : Nat := id / 96 * 2 ^ 24 + id % 96 * 2 ^ 16 + what
/-- A bridge engine: its key in bits 63 to 32 and the plan handle, 0 for a bank ALU, below. -/
def identEngine (key handle : Nat) : Nat := handle + key * 2 ^ 32

/-- Raise GUARD and WATCH at one core for one write of bytes, as addresses and lengths, in a space: 0 scratchpad, 1 near, 2 far virtual. Each guard
and watchpoint that it meets is raised once, with the first byte that it meets there (R142). -/
def State.noteAt (s : State) (rg c space : Nat) (ps : List (Nat × Nat)) (cs : Nat) (w : Writer) : State :=
  let p := (s.core c).sp
  let self := w.core == some c
  let f := fun code first => ({ code := code, cls := if self then w.own else w.other, dst := w.dst, baddr := w.baddr, w5 := if self then w.ident else w.identO, w6 := first } : FaultInfo)
  let meet := fun (s : State) code (hit : Nat → Nat → Option Nat) =>
    match ps.filterMap (fun q => hit q.1 q.2) with | [] => s | x :: l => s.raise rg c cs (f code (l.foldl min x))
  let s1 := if space = 2 ∨ (self ∧ w.exempt) then s else p.guard.toList.foldl (fun s g => meet s 0x40 (guardHit g (space == 1))) s
  p.watch.toList.foldl (fun s g => meet s 0x41 (watchHit g space)) s1

/-- A write to near memory or far virtual memory, seen by every core of the region. -/
def State.noteAll (s : State) (rg space : Nat) (ps : List (Nat × Nat)) (cs : Nat) (w : Writer) : State :=
  (s.rgn rg).d.coreIds.foldl (fun s c => s.noteAt rg c space ps cs w) s

/-- The writer of a preserve or journal area: the bridge whose bank holds the byte (R142; spec/10_transfer_sync_ops.md R260; log entry 41). -/
def areaWriter (banks : List Nat) (i : Nat) (core : Option Nat) : Writer :=
  let a := areaAddr banks i
  { core := core, exempt := core.isSome, own := 3, ident := identEngine (nearU a + 12 * nearV a) 0 }
/-- Write bytes of an area of the acting region, seen by the watchpoints of its cores (R141; spec/10_transfer_sync_ops.md R259, R260). -/
def State.noteArea (s : State) (rg : Nat) (banks : List Nat) (i : Nat) (c : Chunk) (core : Option Nat) : State :=
  (s.writeArea banks i c).noteAll rg 1 ((List.range c.bytes.length).map (fun k => (areaAddr banks (i + k), 1))) (s.rgn rg).clk.sc (areaWriter banks i core)

/-! ## The journal's application (R261, R362) -/

/-- The first poisoned byte of the journal entries that wait to be applied, headers included: its place in the journal, and its mark. -/
def State.applyPoison (s : State) (r : Region) : Option (Nat × Poison) :=
  r.apply.findSome? (fun e => ((e.pos, 32) :: e.beats.map (fun b => (e.place b.1, b.2.2.1))).findSome? (fun p =>
    (s.readArea r.d.jrnBanks p.1 p.2).marks.head?.map (fun m => (p.1 + m.1, m.2))))
/-- Write one beat of a journal entry to its pages, as a write of another region towards the other regions. -/
def State.applyBeat (s : State) (rg : Nat) (rs : List FarRun) (c : Chunk) : State :=
  (s.writeRuns rs c).watchOutside (some rg) (rs.map (fun r => (r.h, r.off, r.len))) 7 rg

/-- The lost H-dies at which held writes that wait to be applied are due, journalled writes included (spec/17_program_recovery.md R378). -/
def State.applyLost (s : State) (r : Region) : List Nat :=
  (r.apply.flatMap (fun e => e.beats.flatMap (fun b => b.2.2.2.flatMap (fun q => leafDies q.leaf)))).filter s.hGone

/-- Apply the journal of a closed outermost domain, entry by entry. A poisoned journal byte stops it, and so does an H-die that is lost and not yet
darned: no entry reaches far memory, and the domain stays the rollback target. -/
def State.applyJournal (s : State) (rg : Nat) : State :=
  let r := s.rgn rg
  if r.poisoned then s
  else if !(s.applyLost r).isEmpty then (s.modRgn rg (fun r => { r with poisoned := true })).lostDue rg r.clk.sc (s.applyLost r) true
  else match s.applyPoison r with
  | some (i, m) =>
    let s1 := s.modRgn rg (fun r => { r with poisoned := true })
    { s1 with free := s1.free + 1 }.raiseOrigin rg ((r.closing.map Prod.fst).getD r.clk.sc)
      { code := 0x50, cls := 14, w5 := areaAddr r.d.jrnBanks i, w6 := (Config.syndrome s1.free).toNat, w7 := m.unit }
  | none => (r.apply.foldl (fun s e => e.beats.foldl (fun s b => s.applyBeat rg b.2.2.2 (s.readArea r.d.jrnBanks (e.place b.1) b.2.2.1)) s) s).modRgn rg
      (fun r => { r with apply := [], closing := none })

/-! ## Claims (R118, R124) -/

/-- What claims a slot. -/
inductive Claim where
  | acc (i : Nat) | slice (trig : Nat) (b : Bool) (k : Nat) | side (trig key : Nat) | row (trig i part : Nat)
  | read (trig j : Nat) | list (trig m : Nat) | land (trig j : Nat) | copy (lvl i : Nat) | eng (c : PzClaim)
  | near (core trig j : Nat)
deriving DecidableEq, Repr

/-- The DST of the operation of a transfer. -/
def XfKind.dst : XfKind → Nat
  | .send => Op.dst (.xf .send) | .recv => Op.dst (.xf .recv) | .getn => Op.dst (.xf .getn) | .putn => Op.dst (.xf .putn)
  | .getf => Op.dst (.xf .getf) | .putf => Op.dst (.xf .putf) | .gathf => Op.dst (.xf .gathf) | .scatf => Op.dst (.xf .scatf)
  | .amon _ _ _ _ => Op.dst (.xf .amon)

/-- A claim: bank, the claimant as records name it, and what it is. -/
abbrev ClaimRec := Nat × Nat × Claim

def Core.accClaims (c : Core) (sc : Nat) : List ClaimRec :=
  (List.range c.banks.length).filterMap (fun i =>
    match c.banks[i]? with | some b => if b.due = sc then some (bankOf b.addr, b.dst, .acc i) else none | none => none)

def MxMul.claims (m : MxMul) (sc : Nat) : List ClaimRec :=
  let who := Op.dst (.mx (if m.sparse then .mmas else .mma))
  (match m.readStep sc with
   | some k => [(bankOf (tdBase m.a), who, .slice m.trig false k), (bankOf (tdBase m.b), who, .slice m.trig true k)]
   | none => []) ++
  (match m.sideFetch sc with | some (key, as) => [(bankOf (as.headD 0), who, .side m.trig key)] | none => [])

def MxMove.claims (m : MxMove) (sc : Nat) : List ClaimRec :=
  match m.slotAt sc with
  | some (i, q) => [(bankOf (m.rowAddr i), Op.dst (.mx (if m.load then .load else .store)), .row m.trig i q)]
  | none => []

def Xfer.scrClaims (x : Xfer) (sc : Nat) : List ClaimRec :=
  let n := x.beats
  (if x.reads && decide (x.read0 ≤ sc) && decide (sc < x.read0 + n) then [(bankOf (x.scrAt (sc - x.read0)), x.kind.dst, .read x.trig (sc - x.read0))] else []) ++
  (if x.landsHere && decide (x.land0 ≤ sc) && decide (sc < x.land0 + n) then [(bankOf (x.scrAt (sc - x.land0)), x.kind.dst, .land x.trig (sc - x.land0))] else []) ++
  (if decide (x.trig < sc) && decide (sc ≤ x.trig + x.listSlots) then [(bankOf (x.list + 256 * (sc - x.trig - 1)), x.kind.dst, .list x.trig (sc - x.trig - 1))] else [])

/-- The copy beats of open domains due in a stitch: level, index, beat. DESIGN CHOICE (log entry 58): a beat still due when its domain closes is
made no more, so the closing domain is not usable. -/
def Region.copiesDue (r : Region) (sc : Nat) : List (Nat × Nat × CopyBeat) :=
  r.doms.flatMap (fun d => (List.range d.copies.length).filterMap (fun i =>
    match d.copies[i]? with | some b => if b.due = sc && !b.done && !b.fail then some (d.level, i, b) else none | none => none))

/-- Every claim on the scratchpad banks of a core. DESIGN CHOICE (log entry 47): the spec does not order the claimants of a contested bank; the
first two that a BANK_CONFLICT record names are taken in this order, and any number of them make one record. -/
def State.scrClaims (s : State) (r : Region) (id sc : Nat) : List ClaimRec :=
  let c := s.core id
  let rel := r.d.relOf id
  c.accClaims sc ++ c.mx.muls.flatMap (fun m => m.claims sc) ++ c.mx.moves.flatMap (fun m => m.claims sc) ++ c.xf.xfers.flatMap (fun x => x.scrClaims sc) ++
  (r.copiesDue sc).filterMap (fun q => if q.2.2.core = rel && !q.2.2.near then some (bankOf q.2.2.addr, Op.dst (.sy .cdopen), .copy q.1 q.2.1) else none) ++
  (s.pzClaims r sc).filterMap (fun q => match q.place with | .win k a => if k = rel then some (bankOf a, q.handle, .eng q) else none | _ => none)

/-- Every claim on the near and MV banks of a region. -/
def State.nearClaims (s : State) (r : Region) (sc : Nat) : List ClaimRec :=
  r.d.coreIds.flatMap (fun id => (s.core id).xf.xfers.filterMap (fun x =>
    if x.isNear && decide (x.slot0 ≤ sc) && decide (sc < x.slot0 + x.beats) then
      some ((x.rem + x.beat * (sc - x.slot0)) / 2 ^ 20, x.kind.dst, .near id x.trig (sc - x.slot0)) else none)) ++
  (r.copiesDue sc).filterMap (fun q => if q.2.2.near then some (q.2.2.addr / 2 ^ 20, Op.dst (.sy .cdopen), .copy q.1 q.2.1) else none) ++
  (s.pzClaims r sc).filterMap (fun q => q.place.bank.map (fun b => (b, q.handle, .eng q)))

/-! ## Voiding contested accesses (R118, R190, R230, R235, R250, R259) -/

def MxEng.modMul (e : MxEng) (t : Nat) (f : MxMul → MxMul) : MxEng := { e with muls := e.muls.map (fun m => if m.trig = t then f m else m) }
def MxEng.modMove (e : MxEng) (t : Nat) (f : MxMove → MxMove) : MxEng := { e with moves := e.moves.map (fun m => if m.trig = t then f m else m) }
def Core.modXfer (c : Core) (t : Nat) (f : Xfer → Xfer) : Core := match c.xfer t with | some x => c.setXfer (f x) | none => c
/-- Mark a copy beat. -/
def Region.markCopy (r : Region) (lvl i : Nat) (ok : Bool) : Region :=
  { r with doms := r.doms.map (fun d => if d.level = lvl then
      { d with copies := d.copies.modify i (fun b => if ok then { b with done := true } else { b with fail := true }) } else d) }

/-- The bank access that is left when a record's slot is contested, or when its read meets poison: an atomic still claims its second slot, for a slot
is claimed whether or not the access moves any byte (R118, R190). -/
def BankAcc.voided (b : BankAcc) : Option BankAcc := match b.kind with | .atomRd _ _ _ => some { b with due := b.due + 1, kind := .atomWr none 0 } | _ => none

/-- A contested second slot of a stored row: the row has no effect, so what its first slot wrote is as it was (R232). -/
def Core.undoRow (c : Core) (t i part : Nat) : Core :=
  match c.mx.moves.find? (fun m => m.trig == t) with
  | some m =>
    if part = 1 ∧ !m.load ∧ !m.bad.contains i then let r := writeChunk c.scr c.scrP (m.rowAddr i) m.undo; { c with scr := r.1, scrP := r.2 } else c
  | none => c

/-- Void one claim of a core's bank. -/
def State.voidClaim (s : State) (id sc : Nat) (q : Claim) : State :=
  match q with
  | .acc i => s.modCore id (fun c => match c.banks[i]? with | some b => { c with banks := c.banks.set i (b.voided.getD { b with due := 0 }) } | none => c)
  | .slice t _ k => s.modCore id (fun c => { c with mx := c.mx.modMul t (fun m => { m with bad := m.bad ++ [k] }) })
  | .side _ _ => s
  | .row t i part => s.modCore id (fun c => { c.undoRow t i part with mx := c.mx.modMove t (fun m => { m with bad := m.bad ++ [i] }) })
  | .read t j | .land t j => s.modCore id (fun c => c.modXfer t (fun x => x.lose [j]))
  | .list t _ => s.modCore id (fun c => c.modXfer t (fun x => x.lose (List.range x.beats)))
  | .copy l i => s.modFr (fun r => r.markCopy l i false)
  | .eng c => s.modFr (fun r => r.pzVoid sc c)
  | .near core t j => s.modCore core (fun c => c.modXfer t (fun x => x.lose [j]))

/-- BANK_CONFLICT on a bank (R118, R124, R354): the first two claimants; every contested access is voided. -/
def State.conflict (s : State) (id sc space bank : Nat) (atCore : Bool) (cl : List ClaimRec) : State :=
  let who := fun i => match cl[i]? with | some (q : ClaimRec) => q.2.1 | none => 0
  let f : FaultInfo := { code := 0x11, dst := who 0, w5 := space * 2 ^ 6 + bank % 64, w6 := who 0, w7 := who 1 }
  let s1 := if atCore then s.raise s.focus.rg id sc f else s.raiseOrigin s.focus.rg sc f
  cl.foldl (fun s q => s.voidClaim id sc q.2.2) s1

/-! ## Poison (R358, R403) -/

/-- A use of a poisoned byte at a core: DATA_UNCORRECTABLE with the class and unit that the byte carries. -/
def State.useFault (s : State) (rg id sc dst baddr a : Nat) (m : Poison) : State :=
  { s with free := s.free + 1 }.raise rg id sc { code := 0x50, cls := m.cls, dst := dst, baddr := baddr, w5 := a, w6 := (Config.syndrome s.free).toNat, w7 := m.unit }

/-- A use of a poisoned structure outside the cores: its fault is recorded at the region's origin core (R357). -/
def State.useOrigin (s : State) (rg sc a : Nat) (m : Poison) : State :=
  { s with free := s.free + 1 }.raiseOrigin rg sc { code := 0x50, cls := m.cls, w5 := a, w6 := (Config.syndrome s.free).toNat, w7 := m.unit }

/-! ## Service of a scratchpad slot -/

/-- Write chunks, which are one write, to a core's scratchpad, clipped to mapped bytes, and raise what watches it. -/
def State.scrWrites (s : State) (rg id sc : Nat) (l : Map Chunk) (w : Writer) : State :=
  let l := (l.map (fun p => (p.1, p.2.slice 0 (scrEnd - p.1)))).filter (fun p => !p.2.bytes.isEmpty)
  let s1 := l.foldl (fun s p => s.modCore id (fun k => let r := writeChunk k.scr k.scrP p.1 p.2; { k with scr := r.1, scrP := r.2 })) s
  s1.noteAt rg id 0 (l.map (fun p => (p.1, p.2.bytes.length))) sc w
/-- Write one chunk. -/
def State.scrWrite (s : State) (rg id sc a : Nat) (c : Chunk) (w : Writer) : State := s.scrWrites rg id sc [(a, c)] w

/-- The bytes that a store writes: offset and length of each piece (R187). -/
def storePieces (size : Nat) (on : BitVec 64) : List (Nat × Nat) :=
  if size < 256 ∨ on = BitVec.allOnes 64 then [(0, size)] else (List.range 64).filterMap (fun g => if on.getLsbD g then some (4 * g, 4) else none)

/-- The value that a load lands (R185). -/
def loadValue (signed : Bool) (size x : Nat) : Nat := if signed && size < 8 then sext64 (8 * size) x else x

/-- Is the record a landing on ls.r? -/
def Landing.isLs (l : Landing) : Bool := match l.tgt with | .latch .ls _ _ _ => true | _ => false

/-- The record of a load, store or atomic has its slot (R185 to R191). -/
def serveAcc (id : Nat) (i : Nat) (s : State) : State :=
  let c := s.core id
  let rg := s.focus.rg
  let sc := s.sc
  match c.banks[i]? with
  | none => s
  | some b =>
    let drop := { c with banks := c.banks.eraseIdx i }
    let x := Memory.readLE c.scr b.addr b.size
    let w : Writer := { core := some id, exempt := true, own := 1, ident := identOp (UnitId.num .ls) b.trig, dst := b.dst }
    let use := fun (k : State → State) =>
      match firstPoison c.scrP b.addr b.size with
      | some (o, m) => (s.setCore id { drop with banks := drop.banks ++ b.voided.toList }).useFault rg id sc b.dst 0 (b.addr + o) m
      | none => k s
    match mget c.regP (recKey .ls b.trig) with
    | some m => (s.setCore id { drop with banks := drop.banks ++ b.voided.toList }).useFault rg id sc b.dst 0 (recKey .ls b.trig) m
    | none =>
    match b.kind with
    | .load sg => use (fun s => s.setCore id (drop.landLatch .ls false b.trig 3 (loadValue sg b.size x) 0))
    | .store data on =>
      (s.setCore id drop).scrWrites rg id sc ((storePieces b.size on).map (fun p => (b.addr + p.1, ⟨toBytes p.2 (data.toNat >>> (8 * p.1)), []⟩))) w
    | .atomRd op v cmp => use (fun s =>
        let n := atomNew op b.size x v.toNat cmp.toNat
        let c1 := drop.landLatch .ls false b.trig 4 x 0
        s.setCore id { c1 with banks := c1.banks ++ [{ b with due := b.due + 1, kind := .atomWr (n.1.map (BitVec.ofNat 64)) n.2 }] })
    | .atomWr val fl =>
      let c1 := { drop with lands := drop.lands.map (fun l => if l.trig == b.trig && l.due == b.trig + 4 && l.isLs then { l with fl := l.fl ||| fl } else l) }
      match val with
      | some v => (s.setCore id c1).scrWrite rg id sc b.addr ⟨toBytes b.size v.toNat, []⟩ w
      | none => s.setCore id c1

/-- Gather bytes of a scratchpad, or the first poisoned one. -/
def Core.gather (c : Core) (as : List Nat) : List Byte ⊕ (Nat × Poison) :=
  match as.findSome? (fun a => (mget c.scrP a).map (fun m => (a, m))) with
  | some p => .inr p
  | none => .inl (as.map (fun a => Memory.read c.scr a))

/-- The row and list reads of one slot (R246): the indices, their rows' bounds, pages and misses. Every slot with a miss is an XLATE cause of its own,
a page that an earlier slot missed included. DESIGN CHOICE (log entry 49): row addresses that are not multiples of 32, which the rule does not
exclude, raise nothing, and their bytes are accessed where they lie; and the record of a slot's cause names the lowest missed address among the rows
whose indices that slot reads. -/
def serveList (id : Nat) (x : Xfer) (m : Nat) (s : State) : State :=
  let c := s.core id
  let rg := s.focus.rg
  let sc := s.sc
  let n := min 64 (x.rowCount - 64 * m)
  let lose := s.modCore id (fun c => c.modXfer x.trig (fun x => x.lose (List.range x.beats)))
  match c.gather ((List.range (4 * n)).map (fun i => x.list + 256 * m + i)) with
  | .inr (a, p) => lose.useFault rg id sc x.kind.dst x.baddr a p
  | .inl bs =>
    let rows := (List.range n).map (fun i => tdBase x.td + elemOf bs 32 i * tdStride x.td)
    match rows.find? (fun a => decide (2 ^ 52 < a + x.rowBytes)) with
    | some a => lose.raise rg id sc { code := 0x21, dst := x.kind.dst, baddr := x.baddr, w5 := a, w6 := x.rowBytes, w7 := 2 }
    | none =>
      let look := c.lookSpans (rows.map (fun a => (a, x.rowBytes)))
      match (if x.farWrite then look.1.find? (fun p => !leafW p.2) else none) with
      | some p => lose.raise rg id sc { code := 0x22, dst := x.kind.dst, baddr := x.baddr, w5 := p.1 * 2 ^ 16, w6 := 2 }
      | none =>
        let s1 := s.modCore id (fun c => c.modXfer x.trig (fun x =>
          { x with rows := x.rows ++ rows, leaves := msets look.1 x.leaves, missed := msets (look.2.map (fun v => (v / 2 ^ 16, sc))) x.missed }))
        if look.2.isEmpty then s1
        else { s1 with focus := { s1.focus with core := id } }.xlate x.kind.dst x.baddr x.trig look.2

/-- A copy beat of a domain (R259): the bytes and their marks go to the preserve area. -/
def serveCopy (lvl i : Nat) (s : State) : State :=
  match s.fr.doms.find? (fun d => d.level == lvl) with
  | none => s
  | some d => match d.copies[i]? with
    | none => s
    | some b =>
      let rg := s.focus.rg
      let k := s.core (s.fr.d.coreAt b.core)
      let c := if b.near then readChunk s.near s.nearP b.addr b.len else readChunk k.scr k.scrP b.addr b.len
      (s.noteArea rg s.fr.d.prsvBanks (lvl * s.fr.d.pbanks * 2 ^ 18 + b.tgt) c none).modFr (fun r => r.markCopy lvl i true)

/-- Serve the only claim of a scratchpad bank. -/
def serveScr (id : Nat) (q : Claim) (s : State) : State :=
  let c := s.core id
  let rg := s.focus.rg
  let sc := s.sc
  match q with
  | .acc i => serveAcc id i s
  | .slice t isB k =>
    match c.mx.muls.find? (fun m => m.trig == t) with
    | none => s
    | some m =>
      match c.gather (if isB then sliceAddrs m.b m.bBytes k else sliceAddrs m.a 2 k) with
      | .inr (a, p) => (s.voidClaim id sc q).useFault rg id sc (Op.dst (.mx (if m.sparse then .mmas else .mma))) m.baddr a p
      | .inl bs => s.setCore id { c with mx := c.mx.modMul t (fun m =>
          let old := mgetD m.slices k ([], [])
          { m with slices := mset m.slices k (if isB then (old.1, bs) else (bs, old.2)) }) }
  | .side t key =>
    match c.mx.muls.find? (fun m => m.trig == t) with
    | none => s
    | some m =>
      match m.sideFetch sc with
      | none => s
      | some (_, as) => match c.gather as with
        | .inr (a, p) => s.useFault rg id sc (Op.dst (.mx (if m.sparse then .mmas else .mma))) m.baddr a p
        | .inl bs => s.setCore id { c with mx := c.mx.modMul t (fun m => { m with sides := mset m.sides key bs }) }
  | .row t i part =>
    match c.mx.moves.find? (fun m => m.trig == t) with
    | none => s
    | some m =>
      if m.load then
        match c.gather ((List.range m.rowBytes).map (fun o => m.rowAddr i + o)) with
        | .inr (a, p) => (s.voidClaim id sc q).useFault rg id sc (Op.dst (.mx .load)) m.baddr a p
        | .inl bs =>
          let r := m.loadRow i bs
          s.setCore id (c.land { due := sc + 2, trig := t, tgt := .tile m.tile (16 * i) r.1, fl := r.2 })
      else if m.bad.contains i then s
      else match m.rowMark c i with
      | some (a, p) => (s.voidClaim id sc q).useFault rg id sc (Op.dst (.mx .store)) m.baddr a p
      | none =>
        let a := m.rowAddr i + 256 * part
        let old := readChunk c.scr c.scrP a 256
        let w : Writer := { core := some id, exempt := true, own := 1, ident := identOp (UnitId.num .mx) t, dst := Op.dst (.mx .store), baddr := m.baddr }
        let r := m.storeRow c i
        (s.setCore id { c.setFlags r.2 with mx := c.mx.modMove t (fun m => { m with undo := old }) }).scrWrite rg id sc a ⟨(r.1.drop (256 * part)).take 256, []⟩ w
  | .read t j =>
    s.setCore id (c.modXfer t (fun x => { x with data := mset x.data j (readChunk c.scr c.scrP (x.scrAt j) (x.blen j)) }))
  | .list t m => match c.xfer t with | some x => if x.gone.isEmpty then serveList id x m s else s | none => s
  | .copy l i => serveCopy l i s
  | _ => s

/-- BANK_SLOT: the slot of bank `b` of a core in this stitch. Two claims are a conflict; a single one is served, but a landing beat by
BEAT_LANDING and an engine's access by the engine (R118). -/
def runBankSlot (id b : Nat) (s : State) : State :=
  let cl := (s.scrClaims s.fr id s.sc).filter (fun q => q.1 == b)
  match cl with
  | [] => s
  | [q] => serveScr id q.2.2 s
  | _ => s.conflict id s.sc 0 b true cl

/-! ## Beats that land (R241 to R243) -/

/-- The last hop of a route as ROUTER_FLIT counts it: the routers of an intra-die path (R303), else the far end. -/
def Route.lastHop (e : Route) : Nat := if e.d = 0 ∧ e.f = 0 then e.h else 1
/-- The beats of sends that arrive at a core in stitch `sc`: route, source core, trigger, beat. -/
def State.arrivals (s : State) (r : Region) (id sc : Nat) : List (Nat × Nat × Nat × Nat) :=
  r.routes.flatMap (fun q =>
    if q.2.sp = r.d.pkg ∧ q.2.dp = r.d.pkg ∧ r.d.isXY id q.2.dx q.2.dy then
      let src := r.d.coreXY q.2.sx q.2.sy
      (s.core src).xf.xfers.filterMap (fun x =>
        if x.kind == .send && x.route == q.1 && decide (x.land0 ≤ sc) && decide (sc < x.land0 + x.beats) then some (q.1, src, x.trig, sc - x.land0) else none)
    else [])
/-- Is a recv of a core expecting a beat on a route in stitch `sc`? -/
def Core.expects (c : Core) (rt sc : Nat) : Bool :=
  c.xf.xfers.any (fun x => x.kind == .recv && x.route == rt && decide (x.land0 ≤ sc) && decide (sc < x.land0 + x.beats))
/-- The bytes of an arriving beat: they have passed every router and were not voided. -/
def State.beatOf (s : State) (r : Region) (q : Nat × Nat × Nat × Nat) : Option Chunk :=
  match (s.core q.2.1).xfer q.2.2.1, mget r.routes q.1 with
  | some x, some e => if x.gone.contains q.2.2.2 || mget x.hops q.2.2.2 != some e.lastHop then none else mget x.data q.2.2.2
  | _, _ => none

/-- ROUTE_MISMATCH at a core (R243). -/
def State.routeRaise (s : State) (id sc rt case_ dst baddr : Nat) : State :=
  s.raise s.focus.rg id sc { code := 0x12, dst := dst, baddr := baddr, w5 := rt, w6 := case_, w7 := s.maps.routerId id }

/-- The fabric port by which a route comes into this package. -/
def Route.portIn (e : Route) (d : Descr) : Nat := ((List.range 24).find? (fun h => (e.uses d).contains (2 ^ 16 + 2 * h + 1))).getD 0
/-- A fabric port as a writer (R142, log entry 20): the port, and the package behind it. -/
def State.identPort (s : State) (h : Nat) : Nat := h * 2 ^ 32 + (Config.partner (s.hPhys h)).1
/-- Land beat `j` of a transfer. The bytes of a beat from another package are free values, and its writer is the fabric port (R142, log entry 30). -/
def landBeat (id : Nat) (x : Xfer) (j : Nat) (s : State) : State :=
  let rg := s.focus.rg
  let sc := s.sc
  if x.gone.contains j then s
  else if x.kind = .recv then
    match (s.fr.route x.route).filter (fun e => e.sp != s.fr.d.pkg) with
    | some e =>
      let w : Writer := { core := some id, own := 5, ident := s.identPort (e.portIn s.fr.d), dst := x.kind.dst, baddr := x.baddr }
      match mget x.data j with
      | some c => s.scrWrite rg id sc (x.scrAt j) c w
      | none => s.fresh.2.scrWrite rg id sc (x.scrAt j) (s.awayChunk (x.blen j)) w
    | none =>
    match (s.arrivals s.fr id sc).find? (fun q => q.1 == x.route) with
    | none => s.routeRaise id sc x.route 5 x.kind.dst x.baddr
    | some q =>
      let w : Writer := { core := some id, own := 2, ident := identCore q.2.1 q.1, dst := x.kind.dst, baddr := x.baddr }
      match s.beatOf s.fr q with
      | some c => s.scrWrite rg id sc (x.scrAt j) c w
      | none => s
  else
    let w : Writer := { core := some id, own := 0, ident := identOp x.kind.dst x.trig, dst := x.kind.dst, baddr := x.baddr }
    match mget x.data j with
    | some c => s.scrWrite rg id sc (x.scrAt j) c w
    | none => s

/-- BEAT_LANDING: the beat that lands in bank `b` of a core, when nothing contests its slot; `b = 3` stands for the beats that no recv expects,
which are not written (R243). -/
def runBeatLanding (id b : Nat) (s : State) : State :=
  let c := s.core id
  if b = 3 then
    ((s.arrivals s.fr id s.sc).filter (fun q => !c.expects q.1 s.sc && (s.beatOf s.fr q).isSome)).foldl (fun s q => s.routeRaise id s.sc q.1 4 0 0) s
  else match (s.scrClaims s.fr id s.sc).filter (fun q => q.1 == b) with
    | [(_, _, .land t j)] => match c.xfer t with | some x => landBeat id x j s | none => s
    | _ => s

/-! ## Near banks (R124) -/

/-- Write a chunk to near memory, and raise what watches it. -/
def State.nearWrite (s : State) (rg sc a : Nat) (c : Chunk) (w : Writer) : State :=
  let r := writeChunk s.near s.nearP a c
  { s with near := r.1, nearP := r.2 }.noteAll rg 1 [(a, c.bytes.length)] sc w

/-- The writer of a put, scatter or amon of a core: its own xf towards itself; towards the others a core of the region, or the bank ALU of the
bridge (R142). -/
def Xfer.writer (x : Xfer) (id : Nat) : Writer :=
  let w : Writer := { core := some id, exempt := true, own := 0, ident := identOp x.kind.dst x.trig, dst := x.kind.dst, baddr := x.baddr }
  match x.kind with
  | .amon _ _ _ _ => { w with other := 3, identO := identEngine (nearU x.rem + 12 * nearV x.rem) 0 }
  | _ => { w with other := 2, identO := identCore id (2 ^ 15 + x.kind.dst) }

/-- One near slot of a transfer (R241, R247). -/
def serveNear (id : Nat) (x : Xfer) (j : Nat) (s : State) : State :=
  let rg := s.focus.rg
  let sc := s.sc
  let a := x.rem + x.beat * j
  let s := if x.mod && j == 0 && !s.fr.apply.isEmpty then s.applyJournal rg else s
  let w := x.writer id
  match x.kind with
  | .getn => s.modCore id (fun c => c.modXfer x.trig (fun x => { x with data := mset x.data j (readChunk s.near s.nearP a (x.blen j)) }))
  | .putn => if x.gone.contains j then s else match mget x.data j with | some c => s.nearWrite rg sc a c w | none => s
  | .amon op n v cmp =>
    match firstPoison s.nearP a n with
    | some (o, m) => { s with free := s.free + 1 }.raiseOrigin rg sc { code := 0x50, cls := m.cls, w5 := a + o, w6 := (Config.syndrome s.free).toNat, w7 := m.unit }
    | none =>
      let old := Memory.readLE s.near a n
      let r := atomNew op n old v.toNat (cmp.toNat % 2 ^ 32)
      let s1 := s.modCore id (fun c => c.landLatch .xf false x.trig (x.land0 - x.trig) old r.2)
      match r.1 with | some y => s1.nearWrite rg sc a ⟨toBytes n y, []⟩ w | none => s1
  | _ => s

/-- NEAR_BANK_ACCESS: the slot of a near bank, or of an MV bank from number 8192, in this stitch (R124, R297). -/
def runNear (nb : Nat) (s : State) : State :=
  let cl := (s.nearClaims s.fr s.sc).filter (fun q => q.1 == nb)
  match cl with
  | [] => s
  | [(_, _, .near id t j)] => match (s.core id).xfer t with | some x => serveNear id x j s | none => s
  | [(_, _, .copy l i)] => serveCopy l i s
  | [_] => s
  | _ => s.conflict (s.fr.d.coreAt 0) s.sc (if cl.all (fun q => match q.2.2 with | .eng _ => true | _ => false) then 2 else 1) nb false cl

/-! ## Engine writes and tokens (spec/11_puzil.md R282, R292) -/

/-- One engine write; that of an op which did not execute moves no byte. -/
def pzStore (p : Plan) (rk : Rank) (w : PWrite) (s : State) : State :=
  if w.chunk.bytes.isEmpty then s else
  let rg := s.focus.rg
  let wr : Writer := { own := 3, ident := identEngine rk.engine p.handle }
  match w.window with
  | some c => s.scrWrite rg (s.fr.d.coreAt c) s.sc w.addr w.chunk wr
  | none =>
    if rk.engine < 96 then s.nearWrite rg s.sc w.addr w.chunk wr
    else let r := writeChunk s.mv s.mvP w.addr w.chunk; { s with mv := r.1, mvP := r.2 }

/-- The tokens of rank `k` of a plan that reach their cores in this stitch (R80, R292). -/
def pzTokens (p : Plan) (k : Nat) (s : State) : State :=
  let t := s.sc
  let s1 := s.modFr (fun r => r.modRank p.handle k (fun rk => { rk with tokens := rk.tokens.filter (fun w => w.due != t) }))
  ((p.rank k).tokens.filter (fun w => w.due == t)).foldl
    (fun s w => s.modCore (s.fr.d.coreAt w.core) (fun c => (c.notify w.tok).setFlags w.fl)) s1
/-- The writes and landings of rank `k` of a plan that take effect in this stitch (R282). -/
def pzWrites (p : Plan) (k : Nat) (s : State) : State :=
  let t := s.sc
  let ws := (p.rank k).writes.filter (fun w => w.due == t)
  let s1 := s.modFr (fun r => r.modRank p.handle k (fun rk => { rk with
    writes := rk.writes.filter (fun w => w.due != t), fl := ws.foldl (fun f w => f ||| w.fl) rk.fl }))
  ws.foldl (fun s w => pzStore p (p.rank k) w s) s1

/-- ENGINE_WRITE: the tokens of rank `k` of a plan that are due in this stitch, with the landings of the stitch (its stage 1), and the writes and
landings that are due, with the effects (log entry 15). -/
def runEngineWrite (h k : Nat) (s : State) : State :=
  match s.fr.plan h with
  | none => s
  | some p => if s.fr.work.stage = 2 then pzTokens p k s else pzWrites p k (pzTokens p k s)

end Sys2Proof.Machine
end

