-- ==== Sys2Proof/Machine/Issue.lean ====
section
/-! DEFINITION. What a core does at the start of a stitch and in its issue: landings (spec/03_core.md R68, R69, R78, R88, R89), the end of an idle
count (spec/02_stitch_time.md R34), redirects (spec/07_scalar_ops.md R179), and the issue of a bundle with its checks (spec/03_core.md R62 to R66;
spec/06_encoding.md R144, R145, R159). -/
namespace Sys2Proof.Machine

/-! ## Landings -/

/-- Land one record's value, latches and tags: `old` is the core before the landings of the stitch, for a masked landing (R195). -/
def Core.landOne (old : Core) (c : Core) (x : Landing) : Core :=
  let c := c.setFlags x.fl
  match x.tgt with
  | .latch u hi val keep =>
    let y := (val &&& ~~~keep) ||| (old.latch u hi &&& keep)
    (c.unmark (fun q => q == latchKey u hi && keep == 0)).setUnit u (if hi then { c.unit u with h := y } else { c.unit u with r := y })
  | .tagSet k e => { c.unmark (fun q => q == slotKey k) with tags := mset c.tags k e }
  | .tagInv k => { c with tags := mset c.tags k (mgetD c.tags k 0 &&& BitVec.ofNat 128 (2 ^ 127 - 1)) }
  | .tile n _ w => c.tileWrite n w
  | .special n v _ => { c.unmark (fun q => q == crKey n && n != 0x10 && n != 0x14) with sp := c.sp.write n v }
  | .vback n v d b => c.queueW (.vback n v d b)

/-- The order of the landings of one stitch: special registers first, with sy writes after cr writes (R264), then the rest by trigger (R69). A set by
a landing thus stands over a clear of the same stitch (R78). -/
def Landing.rank (x : Landing) : Nat := match x.tgt with | .special _ _ false => 0 | .special _ _ true => 1 | _ => 2 + x.trig

/-- A second write-back of one register in one stitch: the later op's write-back has no effect (R88). -/
def secondBack (c : Core) (x : Landing) : Option (Nat × Nat × Nat) :=
  match x.tgt with | .vback n _ d b => (c.writtenBack n).map (fun _ => (n.val, d, b)) | _ => none

/-- The unit whose record a landing is. -/
def Landing.unit (x : Landing) : UnitId :=
  match x.tgt with
  | .latch u _ _ _ => u
  | .vback _ _ d _ => if d / 128 = UnitId.num .vp then .vp else .vx
  | .special _ _ sy => if sy then .sy else .cr
  | .tagSet _ _ | .tagInv _ => .tg
  | .tile _ _ _ => .mx

/-- Do a store's elements of row `i` land in the scratchpad in this stitch: is the row's slot claimed by nothing else (R118), and no element poisoned? -/
def MxMove.lands (m : MxMove) (c : Core) (cl : List ClaimRec) (i : Nat) : Bool :=
  !m.load && !m.bad.contains i && (m.rowMark c i).isNone && (cl.filter (fun q => q.1 == bankOf (m.rowAddr i))).length == 1
/-- The flags of the rows that tile stores write in stitch `t`, by bank: a move of the stitch sees them (R78, R232). -/
def Core.storeFlags (c : Core) (cl : List ClaimRec) (t : Nat) : Core :=
  { c with mx := { c.mx with rowFl := c.mx.moves.filterMap (fun m => match m.slotAt t with
      | some (i, _) => if m.lands c cl i then some (bankOf (m.rowAddr i), (m.storeRow c i).2) else none
      | none => none) } }

/-- One record that is due lands: a poisoned one is a use and lands nothing (R358 class 0), and a second write-back of a register has no effect (R88). -/
def State.landRec (id : Nat) (old : Core) (s : State) (x : Landing) : State :=
  match mget (s.core id).regP (recKey x.unit x.trig) with
  | some m => s.useFault s.focus.rg id s.sc 0 0 (recKey x.unit x.trig) m
  | none =>
    match secondBack (s.core id) x with
    | some (n, d, b) => s.raise s.focus.rg id s.sc { code := 0x04, dst := d, baddr := b, w5 := 0xfa0 + n, w6 := 0xfff }
    | none => s.modCore id (fun k => Core.landOne old k x)
/-- The step of a multiply that becomes visible in this stitch; one that uses a poisoned value has no effect, nor do the steps after it. -/
def State.landMul (id : Nat) (s : State) (m : MxMul) : State :=
  match m.landStep s.sc with
  | none => s
  | some j =>
    match (s.core id).mulMark m j with
    | some (a, p) => (s.modCore id (fun k => { k with mx := k.mx.modMul m.trig (fun m => m.voidFrom j) })).useFault s.focus.rg id s.sc
        (Op.dst (.mx (if m.sparse then .mmas else .mma))) m.baddr a p
    | none => s.modCore id (fun k => k.mulLand m j)
/-- LANDING: every record of a core that is due in this stitch lands, every step of a multiply that becomes visible, and the flags of the rows that
a tile store writes. -/
def runLanding (id : Nat) (s : State) : State :=
  let c := s.core id
  let t := s.sc
  let due := (c.lands.filter (fun x => x.due == t)).foldl (fun l x => insertBy Landing.rank x l) []
  let s0 := s.setCore id { c with lands := c.lands.filter (fun x => x.due != t) }
  let s1 := (s0.core id).mx.muls.foldl (State.landMul id) (due.foldl (State.landRec id c) s0)
  s1.modCore id (fun k =>
    let k1 := k.storeFlags (s.scrClaims s.fr id t) t
    { k1 with mx := { k1.mx with muls := k1.mx.muls.filter (fun m => decide (t < m.finish)), moves := k1.mx.moves.filter (fun m => decide (t < m.finish)) } })

/-- Does a core have anything to land in stitch `t`? -/
def Core.landsAt (c : Core) (t : Nat) : Bool :=
  c.lands.any (fun x => x.due == t) || c.mx.muls.any (fun m => (m.landStep t).isSome || decide (m.finish ≤ t)) ||
    c.mx.moves.any (fun m => decide (m.finish ≤ t) || (!m.load && (m.slotAt t).isSome))

/-- IDLE_END: the idle count of a core has run out, and it issues again. -/
def runIdleEnd (id : Nat) (s : State) : State :=
  s.modCore id (fun c => match c.issue with | .idle r => if r ≤ s.sc then { c with issue := .issuing } else c | _ => c)

/-- BRANCH_REDIRECT: a core that issues in this stitch takes the target of the latest-issued redirect that is due, and discards all that are. -/
def runRedirect (id : Nat) (s : State) : State :=
  s.modCore id (fun c =>
    match (c.redir.filter (fun r => decide (r.due ≤ s.sc))).getLast? with
    | some r => if c.issue = .issuing then { c with pc := r.target, redir := c.redir.filter (fun r => decide (s.sc < r.due)) } else c
    | none => c)

/-! ## The checks of a bundle (R63, R64) -/

/-- A move's place in a bundle: index, address and parcels. -/
abbrev Cut := Nat × Nat × Nat

/-- R145: a parcel at or above 0x2_0000, or inside the liveness table. -/
def Core.parcelBad (c : Core) (a w : Nat) : Bool :=
  let e := a + 2 * moveSize w
  decide (2 ^ 17 < e) || (c.ltCount != 0 && decide (c.ltBase < e) && decide (a < c.ltBase + 64 * c.ltCount))

/-- What a move triggers. -/
def Move.op : Move → Option Op
  | .short _ (.trig o) _ | .transport _ (.trig o) _ _ _ _ _ | .imm (.trig o) _ _ | .long (.trig o) _ _ _ => some o
  | .compact o _ _ _ => some (compactOp o.val)
  | _ => none
/-- The plain destination of a move. -/
def Move.dst : Move → Option PlainDst
  | .short _ (.plain d) _ => some (ShortDst.plain d)
  | .transport _ (.plain d) _ _ _ _ _ | .imm (.plain d) _ _ | .long (.plain d) _ _ _ => some d
  | _ => none
/-- The operand ports that a move writes, as DST values. -/
def Move.ports (m : Move) : List Nat :=
  match m with
  | .compact _ _ _ _ => []
  | m => (match Move.op m with | some o => [128 * o.unit.num + 1] | none => []) ++
    (match Move.dst m with | some (.port u k) => [128 * u.num + k.val] | _ => [])
/-- The register-file reads that a move counts (R63, R149). -/
def Src.isReg : Src → Bool | .g _ | .v _ | .p _ => true | _ => false
def Move.reads : Move → Nat
  | .short (.g _) _ _ => 1
  | .transport s _ q _ _ _ _ => (if Src.isReg s then 1 else 0) + (if q then 1 else 0)
  | .compact _ d r _ => if d.toNat = r.toNat then 1 else 2
  | _ => 0
/-- The registers that a move writes, as DST values: a post-increment counts as a p write. -/
def Move.writes (m : Move) : List Nat :=
  (match Move.dst m with | some (.g n) => [0xf80 + n.val] | some (.v n) => [0xfa0 + n.val] | some (.p n) => [0xfc0 + n.val] | _ => []) ++
  (match m with | .transport (.p n) (.trig o) _ _ _ md _ => if o.postInc md then [0xfc0 + n.val] else [] | _ => [])
/-- Does a move end its bundle? -/
def Move.ends : Move → Bool
  | .short _ _ e | .compact _ _ _ e | .transport _ _ _ _ _ _ e | .imm _ _ e | .long _ _ _ e | .nop e => e
  | .idle _ _ => true

/-- The lowest value that a list holds more than `n` times. -/
def overused (n : Nat) (l : List Nat) : Option Nat := (l.filter (fun x => decide (n < l.count x))).foldl (fun m x => some (match m with | some y => min x y | none => x)) none

/-- The first limit of R63 that the moves break, with the unit, port or register concerned, of lowest DST. -/
def limitBroken (ms : List Move) : Option (Nat × Nat) :=
  let ws := ms.flatMap Move.writes
  let file := fun lo n => let l := ws.filter (fun x => decide (lo ≤ x) && decide (x < lo + n)); if 3 < l.length then l.foldl (fun m x => some (match m with | some y => min x y | none => x)) none else none
  if ms.length = 6 ∧ ms.all (fun m => !Move.ends m) then some (0, 0)
  else match overused 1 (ms.filterMap (fun m => (Move.op m).map (fun o => 128 * o.unit.num))) with
    | some u => some (1, u)
    | none => match overused 1 (ms.flatMap Move.ports) with
      | some p => some (2, p)
      | none =>
        if 6 < (ms.map Move.reads).foldl (· + ·) 0 then some (3, 0)
        else match (file 0xf80 32).orElse (fun _ => (file 0xfa0 32).orElse (fun _ => file 0xfc0 8)) with
          | some r => some (4, r)
          | none => (overused 1 ws).map (fun r => (5, r))

/-- The first check of R64 that the bundle fails; `bad` is the lowest-indexed move that R145 or R159 refuses. -/
def bundleFault (c : Core) (t : Nat) (cuts : List Cut) : Option FaultInfo :=
  let parsed := cuts.map (fun q => (q, (parseMove q.2.2).filter Move.legal))
  match parsed.find? (fun q => c.parcelBad q.1.2.1 q.1.2.2 || q.2.isNone) with
  | some (q, _) =>
    let enc := q.2.2 % 2 ^ (16 * moveSize q.2.2)
    some (illegalFault c 0 (if c.parcelBad q.2.1 q.2.2 then 0 else 1) q.1 enc 0)
  | none =>
    let ms := parsed.filterMap (fun q => q.2)
    match limitBroken ms with
    | some (l, u) => some { code := 0x02, baddr := c.cur, w5 := l, w6 := u }
    | none => ((ms.filterMap Move.op).find? (fun o => c.opBusy o t)).map (fun o => busyFault c o t)

/-- The turn of a move among those of its bundle, in which their order is not observable (R62): plain moves first, so that a trigger sees every port
write of its bundle (R66); then the units; then sy and then cr, whose checks see what the other triggers of the stitch start (R81, R217, R258,
R261; log entry 45). -/
def moveTurn (w : Nat) : Nat :=
  match (parseMove w).bind Move.op with
  | none => 0
  | some o => match o.unit with | .cr => 3 | .sy => 2 | _ => 1
/-- The moves of a bundle in the order of their turns. -/
def turnOrder (l : List (Nat × Nat)) : List Nat := ((List.range 4).flatMap (fun k => l.filter (fun q => moveTurn q.2 == k))).map Prod.fst

/-! ## The poisoned values that a bundle uses (R358 classes 0, 3 and 4) -/

/-- The register or latch that a source reads, as `regP` numbers it; and those that a move reads, its mask included (R75). -/
def srcReg (x : Src) : List Nat :=
  match x with | .g n => [n.val] | .v n => [32 + n.val] | .p n => [64 + n.val] | .r u => [latchKey u false] | .h u => [latchKey u.unit true] | .imm _ => []
def Move.regs (m : Move) : List Nat :=
  match m with
  | .short x _ _ => srcReg x.wide
  | .compact _ vd vs _ => [32 + vd.toNat, 32 + vs.toNat]
  | .transport x _ q k _ _ _ => srcReg x ++ (if q then [56 + k.toNat] else [])
  | _ => []
/-- The operand ports besides o1 that an operation uses: o0, o2, or both (spec/07_scalar_ops.md, spec/08_vector_ops.md, spec/10_transfer_sync_ops.md). -/
def Op.uses (o : Op) : List Nat :=
  match o with
  | .ia _ q => (match q with | .clz | .ctz | .popc => [] | .sel | .bfi | .pset => [0, 2] | _ => [0])
  | .im _ => [0]
  | .ls q => (match q with
    | .ld8 | .ld8u | .ld16 | .ld16u | .ld32 | .ld32u | .ld64 | .ld256 => []
    | .acas => [0, 2]
    | _ => [0])
  | .vx q => (match q with | .fabs | .fneg | .fsqrt => [] | .fma | .fms | .fnma => [0, 2] | _ => [0])
  | .vp q => (match q with
    | .slideup | .slidedn | .ilv | .dilv | .cvtEf => [0, 2]
    | .perm | .rot | .compress | .expand | .mand | .mor | .mxor | .dqblk | .cvt => [0]
    | _ => [])
  | .mx _ => []
  | .xf q => (match q with | .flush | .commit | .wait => [] | _ => [0, 2])
  | .br q => (match q with | .beq => [0, 2] | .bz | .bnz | .bltz | .bgez | .loop => [0] | _ => [])
  | .sy q => (match q with | .cdopen | .guard | .sysreq => [0, 2] | .watch => [0] | _ => [])
  | .tg q => (match q with | .set => [0, 2] | _ => [])
  | .cr q => (match q with | .wr => [0] | .rd => [])
/-- The words of a descriptor. -/
def tdKeys (n : Nat) : List Nat := (List.range 4).map (fun w => crKey (0x100 + 4 * n + w))
/-- The special registers, descriptors, tag slots and tile elements that an operation reads at its trigger, whose o1 is `b`. -/
def Op.homes (o : Op) (c : Core) (b : Nat) : List Nat :=
  let tile := fun n => crKey (0x20 + n)
  match o with
  | .mx q => (match q with
    | .mma | .mmas => tdKeys (b % 32) ++ tdKeys (b / 32 % 32) ++ [tile (b / 1024 % 16)]
    | .load | .store => tdKeys (b % 32) ++ [tile (b / 1024 % 16)]
    | .rrow => tile (b % 16) :: (List.range (acfgCols (c.acfg (b % 16)))).map (fun j => tileKey (b % 16) (64 * (b / 16 % 64) + j))
    | .rcol => tile (b % 16) :: (List.range (acfgRows (c.acfg (b % 16)))).map (fun i => tileKey (b % 16) (64 * i + b / 16 % 64))
    | .wrow | .wcol => [tile (b % 16), 32 + b / 1024 % 32]
    | .zero => [tile (b % 16)]
    | .status => (List.range 16).map tile
    | .commit | .wait => [])
  | .xf .gathf | .xf .scatf => tdKeys (b % 32)
  | .vx .fadd | .vx .fsub | .vx .fmul | .vx .fma | .vx .fms | .vx .fnma | .vx .fdiv | .vx .fsqrt => [crKey 0x12]
  | .br .ret => [latchKey .br false]
  | .sy .tfence => [crKey 0x10, crKey 0x11]
  | .sy .chk => [crKey 0x14]
  | .tg .look => (List.range 256).map slotKey
  | .tg .read => [slotKey (b % 256)]
  | .cr .rd => [crKey (b % 2 ^ 12)]
  | _ => []
/-- The value that a move gives its destination. -/
def Move.value (m : Move) (c : Core) : Nat :=
  match m with
  | .short x _ _ => c.src x.wide
  | .transport x _ _ _ _ _ _ => c.src x
  | .imm _ x _ => immValue x
  | .long _ p x _ => longValue p x
  | _ => 0
/-- What the operation that a move triggers uses: its ports and what it reads at its trigger. -/
def Move.uses (m : Move) (c : Core) : List Nat :=
  match m with
  | .compact _ _ _ _ => []
  | m => match Move.op m with | some o => (Op.uses o).map (portKey o.unit.num) ++ Op.homes o c (Move.value m c) | none => []
/-- The keys of the ports that a move writes. -/
def Move.portKeys (m : Move) : List Nat := (Move.ports m).map (fun p => portKey (p / 128) (p % 128))
/-- The keys of the ports that the moves of a bundle write. -/
def cutPorts (cuts : List (Nat × Nat)) : List Nat := cuts.flatMap (fun q => (parseMove q.2).elim [] Move.portKeys)
/-- The first poisoned value that a bundle uses, with its mark: the ports that the bundle itself writes are not those (R66). -/
def Core.regPoison (c : Core) (cuts : List (Nat × Nat)) : Option (Nat × Poison) :=
  if c.regP.isEmpty then none
  else
    let wr := cutPorts cuts
    c.firstMark (cuts.flatMap (fun q => (parseMove q.2).elim [] (fun m => Move.regs m ++ (Move.uses m c).filter (fun k => !wr.contains k))))

/-- BUNDLE_ISSUE: cut the bundle at the core's next address and check it; a bundle that passes leaves its moves to be run. A poisoned byte of the
bundle is a use, and nothing of it issues, nor where it uses a poisoned value of the core (R358 classes 1, 0, 3 and 4). DESIGN CHOICE (log entry 33): the
spec does not order such a use against the checks of R64, and the model takes it first, so that a bundle which also breaks R159 raises no
ILLEGAL_MOVE. The core's next address is the one after the bundle either way. -/
def runIssue (id : Nat) (s : State) : State :=
  let c0 := s.core id
  if c0.issue = .issuing then
    let cuts0 := cutBundle c0.imem 6 c0.pc
    let cuts : List Cut := (List.range cuts0.length).zip cuts0
    let c := { c0 with cur := c0.pc, pc := nextBundle c0.imem c0.pc }
    let s1 := (s.setCore id c)
    match firstPoison c.imemP c.cur (c.pc - c.cur) with
    | some (o, m) => s1.useFault s.focus.rg id s.sc 0 c.cur (c.cur + o) m
    | none =>
    match c.regPoison cuts0 with
    | some (n, m) => s1.useFault s.focus.rg id s.sc 0 c.cur n m
    | none =>
    match bundleFault c s.sc cuts with
    | some f => s1.raise s.focus.rg id s.sc f
    | none =>
      let s2 := s1.modCore id (fun c => c.unmark (cutPorts cuts0).contains)
      { s2 with focus := { s2.focus with core := id, moves := turnOrder cuts0 } }
  else s

end Sys2Proof.Machine
end

