-- ==== Sys2Proof/Machine/FarMove.lean ====
section
/-! DEFINITION. Beats on their way outside the core: flits at routers (spec/13_programs_region.md R303), and far beats at their H-dies: probe,
decision, read and effect (spec/05_memory.md R126, R129; spec/16_faults_recovery.md R371, R374, R378, R401). -/
namespace Sys2Proof.Machine

/-- Act in a region, for its core of a region-relative index. -/
def State.onRg (s : State) (rg : Nat) : State := { s with focus := { s.focus with rg := rg } }

/-! ## Flits (R303) -/

/-- The hop that beat `j` of a send makes in stitch `t`: the routers 0 to h of an intra-die path at t + 2 + 2i, else the source router and the far
end two stitches before the landing. -/
def Route.hopAt (e : Route) (x : Xfer) (j t : Nat) : Option Nat :=
  if e.d = 0 ∧ e.f = 0 then
    if x.trig + 2 + j ≤ t ∧ (t - (x.trig + 2 + j)) % 2 = 0 ∧ (t - (x.trig + 2 + j)) / 2 ≤ e.h then some ((t - (x.trig + 2 + j)) / 2) else none
  else if t = x.trig + 2 + j then some 0
  else if t + 2 = x.land0 + j then some 1
  else none

/-- ROUTER_FLIT: beat `j` of the send that core `id` triggered at `trig` reaches the next router of its route. A flit that meets a disabled entry
is discarded (spec/15_region_scheduler.md R349); one that meets a poisoned entry is a use of it, and is lost (R358 class 15). -/
def runFlit (id trig j : Nat) (s : State) : State :=
  match (s.core id).xfer trig with
  | none => s
  | some x =>
    match mget s.fr.routes x.route with
    | none => s
    | some e =>
      match e.hopAt x j s.sc with
      | none => s
      | some i =>
        let here := if i = 0 then (mget x.data j).isSome else mget x.hops j == some (i - 1)
        if x.gone.contains j then s
        else match mget s.fr.badP (1 + x.route) with
        | some m => (s.modCore id (fun c => c.modXfer trig (fun x => x.lose [j]))).useOrigin s.focus.rg s.sc (1 + x.route) m
        | none =>
        if e.on && here then s.modCore id (fun c => c.modXfer trig (fun x => { x with hops := mset x.hops j i }))
        else s.modCore id (fun c => c.modXfer trig (fun x => x.lose [j]))

/-! ## H-dies -/

/-- The group and position of each protected byte of runs. -/
def runCells (rs : List FarRun) : List (BitVec 64 × Nat × Nat) :=
  rs.flatMap (fun r => if leafProt r.leaf then (List.range r.len).map (fun i => (r.leaf, (r.v + i) / 1024, (r.v + i) % 256)) else [])

/-- Write what cannot be read of a byte position of a group from what can, on the dies in service (R372, R373). -/
def State.fillAt (s : State) (l : BitVec 64) (g e : Nat) : State :=
  match s.groupData l g e with
  | none => s
  | some d =>
    let v := d ++ [codeP d, codeQ d]
    let ks := s.stripeKeys l g e
    (List.range 6).foldl (fun t m => if s.hOk (ks.getD m 0) then t else t.pokeFar (ks.getD m 0) (BitVec.ofNat 8 (v.getD m 0)) none) s

/-- A single stripe found uncorrectable on an H-die in service is rebuilt in place at once (R374). -/
def State.healAt (s : State) (l : BitVec 64) (g e : Nat) : State :=
  let ks := s.stripeKeys l g e
  match ks.filter (fun k => !s.hOk k) with
  | [k] => if (mget s.farP k).isSome && !s.hdies.lost.contains (k / 2 ^ 37) then s.fillAt l g e else s
  | _ => s

/-- Can a beat not proceed: a byte that it reads cannot be rebuilt, or three stripes of a group that it writes are lost (R374, R401)? -/
def State.beatBlocked (s : State) (x : Xfer) (j : Nat) : Bool :=
  if x.farRead then (x.runs j).any (fun r => (List.range r.len).any (fun i => s.byteLost r.leaf (r.v + i)))
  else (runCells (x.runs j)).any (fun c => decide (2 < s.lostStripes c.1 c.2.1 c.2.2))

/-- Does a group keep a readable stripe on a spare that is still rebuilding the group (R374, R401)? -/
def State.groupRebuilding (s : State) (l : BitVec 64) (g e : Nat) : Bool :=
  let ks := s.stripeKeys l g e
  decide (s.lostStripes l g e ≤ 2) && ks.any (fun k => s.hOk k && ks.any (fun k' => k' / 2 ^ 37 == k / 2 ^ 37 && (mget s.hdies.rebuild (k / 2 ^ 37)).isSome && !s.hOk k'))
/-- Does a beat touch such a group? -/
def State.beatRebuilding (s : State) (x : Xfer) (j : Nat) : Bool := (runCells (x.runs j)).any (fun c => s.groupRebuilding c.1 c.2.1 c.2.2)

/-- Rebuild one group of a page: every stripe of it that cannot be read (R373, R374). -/
def State.fillGroup (s : State) (l : BitVec 64) (g : Nat) : State := (List.range 256).foldl (fun t e => t.fillAt l g e) s
/-- Rebuild a group ahead of its turn: the units of the spares that hold its stripes are rebuilt from then on (R374). -/
def State.fillNow (s : State) (l : BitVec 64) (g : Nat) : State :=
  let units := ((s.stripeKeys l g 0).filter (fun x => (mget s.hdies.rebuild (x / 2 ^ 37)).isSome)).map (fun x => x / 512)
  let t := s.fillGroup l g
  { t with hdies := { t.hdies with ahead := t.hdies.ahead ++ units } }

/-- The H-dies at which a beat has a part: those of the bytes that it reads, or all those of the pages that it writes. -/
def Xfer.dies (x : Xfer) (j : Nat) : List Nat := if x.farRead then (x.runs j).map (fun r => r.h) else (x.runs j).flatMap (fun r => leafDies r.leaf)

/-- FAR_PROBE: the H-dies check the stripes of a beat. A lost H-die gives REBUILD with this stitch as its cause stitch (R378); a beat that cannot
proceed is decided within 120 stitches. -/
def runFarProbe (id trig j : Nat) (s : State) : State :=
  match (s.core id).xfer trig with
  | none => s
  | some x =>
    if x.gone.contains j || !(x.farRead || (x.farWrite && x.prot j)) then s
    else
      let rg := s.focus.rg
      let s1 := s.lostDue rg s.sc (x.dies j) x.farWrite
      let s2 := if s1.farP.isEmpty then s1 else (runCells (x.runs j)).foldl (fun s c => s.healAt c.1 c.2.1 c.2.2) s1
      if s2.beatBlocked x j || s2.beatRebuilding x j then
        let n := s2.fresh
        n.2.modCore id (fun c => c.modXfer trig (fun x => { x with bad := mset x.bad j (s.sc + 1 + Config.decision n.1 % 120) }))
      else s2

/-- The far virtual address of byte `p` of a beat. -/
def Xfer.vaAt (x : Xfer) (j p : Nat) : Nat :=
  ((x.spans j).foldl (fun (acc : Nat × Nat) sp => (acc.1 + sp.2, if acc.1 ≤ p ∧ p < acc.1 + sp.2 then sp.1 + (p - acc.1) else acc.2)) (0, x.rem)).2

/-- DATA_UNCORRECTABLE of location class 10 for a beat; the beat is not performed. -/
def State.farLost (s : State) (id trig j va phys : Nat) : State :=
  let s1 := s.modCore id (fun c => c.modXfer trig (fun x => x.lose [j]))
  { s1 with free := s1.free + 1 }.raiseOrigin s.focus.rg s.sc
    { code := 0x50, cls := 10, w5 := va, w6 := (Config.syndrome s1.free).toNat, w7 := hdieId phys }

/-- The first byte of a beat that lies in an unprotected page of a lost H-die, or in a unit with a lost mark, and that no held write covers:
position and physical H-die (R371). DESIGN CHOICE (log entry 58): a byte that a held write
covers is not lost, for the journal still keeps it. -/
def State.lostByte (s : State) (rs : List FarRun) (c : Chunk) : Option (Nat × Nat) :=
  rs.findSome? (fun r =>
    if leafProt r.leaf then none
    else (List.range r.len).findSome? (fun i =>
      let key := s.hKey r.h (r.off + i)
      if (s.hdies.lost.contains (key / 2 ^ 37) || s.lostMark key) && (mget c.marks (r.pos + i)).isSome then some (r.pos + i, key / 2 ^ 37) else none))

/-- The H-dies read the bytes of a beat, as the region sees them (R129, R260); lost stripes are rebuilt from the surviving ones. A byte with a lost
mark is lost (R371). -/
def State.readBeat (s : State) (id trig j : Nat) (x : Xfer) : State :=
  let rs := x.runs j
  let c := s.regionRead s.fr rs (x.blen j)
  match s.lostByte rs c with
  | some (p, phys) => s.farLost id trig j (x.vaAt j p) phys
  | none => s.modCore id (fun k => k.modXfer trig (fun x => { x with data := mset x.data j c }))

/-- The byte at which a beat cannot proceed, by its position, and the physical H-die of the stripe that is lost there (spec/16_faults_recovery.md R354). -/
def State.blockedAt (s : State) (x : Xfer) (j : Nat) : Option (Nat × Nat) :=
  (x.runs j).findSome? (fun r => (List.range r.len).findSome? (fun i =>
    let v := r.v + i
    if (if x.farRead then s.byteLost r.leaf v else leafProt r.leaf && decide (2 < s.lostStripes r.leaf (v / 1024) (v % 256))) then
      (((if x.farRead then [s.hKey r.h (r.off + i)] else s.stripeKeys r.leaf (v / 1024) (v % 256)).find? (fun k => !s.hOk k)).map (fun k => (r.pos + i, k / 2 ^ 37)))
    else none))
/-- The physical H-die whose rebuild a beat waits for. -/
def State.rebuildDie (s : State) (x : Xfer) (j : Nat) : Option Nat :=
  (runCells (x.runs j)).findSome? (fun c =>
    if s.groupRebuilding c.1 c.2.1 c.2.2 then ((s.stripeKeys c.1 c.2.1 c.2.2).find? (fun k => !s.hOk k && (mget s.hdies.rebuild (k / 2 ^ 37)).isSome)).map (fun k => k / 2 ^ 37) else none)
/-- REBUILD_DECISION: the H-dies decide how a beat that its probe found blocked proceeds (R374, R401), and serve a read that a lost H-die did not
perform (R378). -/
def runDecision (id trig j : Nat) (s : State) : State :=
  match (s.core id).xfer trig with
  | none => s
  | some x =>
    if x.gone.contains j || mget x.bad j != some s.sc then s
    else
      let phys := s.hPhys ((x.dies j).headD 0)
      let s1 := s.modCore id (fun c => c.modXfer trig (fun x => { x with bad := mdel x.bad j }))
      let at_ := (s.blockedAt x j).getD (0, phys)
      if s.beatBlocked x j then s1.farLost id trig j (x.vaAt j at_.1) at_.2
      else if s.beatRebuilding x j then s1.rebuildCause s.focus.rg s.sc ((s.rebuildDie x j).getD phys) x.farWrite
      else if x.farRead && decide (x.slot0 + j < s.sc) && (mget x.data j).isNone then s1.readBeat id trig j { x with bad := mdel x.bad j }
      else s1

/-- FAR_READ: the read of a beat at its read stitch. A read of an unprotected page of an H-die that is lost and not yet darned is not performed: it
gives the region a REBUILD cause, and is served when the region goes on (R378). -/
def runFarRead (id trig j : Nat) (s : State) : State :=
  match (s.core id).xfer trig with
  | none => s
  | some x =>
    if x.gone.contains j || !x.farRead then s
    else
      let s1 := s.lostDue s.focus.rg s.sc (x.dies j) false
      match s.lostByte (x.runs j) (s.regionRead s.fr (x.runs j) (x.blen j)) with
      | some (_, phys) =>
        if s.hdies.lost.contains phys then s1.modCore id (fun c => c.modXfer trig (fun x => { x with bad := mset x.bad j (s.sc + s.fr.d.dh) }))
        else s1.readBeat id trig j x
      | none => s1.readBeat id trig j x

/-! ## Effects of far writes -/

/-- A far beat with an effect in a stitch: core, transfer, beat and its runs. -/
abbrev FarDue := Nat × Xfer × Nat × List FarRun

/-- The far beats of a region that take effect in stitch `sc`. -/
def State.farDue (s : State) (r : Region) (sc : Nat) : List FarDue :=
  r.d.coreIds.flatMap (fun id => (s.core id).xf.xfers.flatMap (fun x =>
    if x.farWrite then (List.range x.beats).filterMap (fun j =>
      if !(x.dueRuns j sc).isEmpty ∧ !x.gone.contains j ∧ (mget x.data j).isSome then some (id, x, j, x.dueRuns j sc) else none) else []))

/-- Do two beats of different transfers share a byte of an H-die? -/
def farClash (a b : FarDue) : Option Nat :=
  if a.1 = b.1 ∧ a.2.1.trig = b.2.1.trig then none
  else a.2.2.2.findSome? (fun p => b.2.2.2.findSome? (fun q => if (runMeet p q).isSome then some p.h else none))

/-- BANK_CONFLICT at an H-die: each of the writes of the stitch that share a byte is voided, and each pair recorded once (R126). -/
def State.farConflicts (s : State) : State :=
  let l := s.farDue s.fr s.sc
  let bad := l.filter (fun a => l.any (fun b => (farClash a b).isSome))
  let recs := (List.range l.length).flatMap (fun i => (l.drop (i + 1)).filterMap (fun b => match l[i]? with
    | some a => (farClash a b).map (fun h => (h, a, b))
    | none => none))
  let s1 := recs.foldl (fun s q => s.raiseOrigin s.focus.rg s.sc
    { code := 0x11, dst := q.2.1.2.1.kind.dst, baddr := q.2.1.2.1.baddr, w5 := 3 * 2 ^ 6 + q.1, w6 := q.2.1.2.1.kind.dst, w7 := q.2.2.2.1.kind.dst }) s
  bad.foldl (fun s a => s.modCore a.1 (fun c => c.modXfer a.2.1.trig (fun x => x.lose [a.2.2.1]))) s1

/-- The journal entry of a transfer: in the journal, or among those that a close has left to be applied, for a core that had halted takes no part in the
close, and its transfers go on (spec/10_transfer_sync_ops.md R254, R261). -/
def Region.jEntry (r : Region) (rel : Nat) (x : Xfer) : Option JEntry :=
  if x.jrn then (r.journal ++ r.apply).find? (fun e => e.trig == x.trig && e.core == rel) else none
/-- Keep a beat as a held write, and write it into the journal (R260, R361). -/
def State.holdWrite (s : State) (rel : Nat) (x : Xfer) (j : Nat) (rs : List FarRun) (c : Chunk) : State :=
  match s.fr.jEntry rel x with
  | none => s
  | some e =>
    let k := 2 * j + (if rs.any (fun r => leafProt r.leaf) then 1 else 0)
    let e1 := { e with eff := x.effAt 0, prot := e.prot || x.prot j, beats := mset e.beats k (s.sc, c.bytes.length, rs) }
    let banks := s.fr.d.jrnBanks
    let put := fun (l : List JEntry) => l.map (fun q => if q.trig = x.trig ∧ q.core = rel then e1 else q)
    let s1 := s.modFr (fun r => { r with journal := put r.journal, apply := put r.apply })
    (s1.noteArea s.focus.rg banks e.pos ⟨toBytes 32 e1.header, []⟩ (some (s.fr.d.coreAt rel))).noteArea s.focus.rg banks (e.place (2 * j)) c (some (s.fr.d.coreAt rel))

/-- FAR_WRITE_EFFECT: the bytes of a beat whose stitch this is take effect at their H-dies, or are kept as held writes while journalled; once its journal
has been applied, a journalled transfer of a core that had halted before the close goes on as a plain one (R254, R261). A release write first makes the journal
that a close left visible (R135, R261). A write due at a lost H-die is not performed there, and gives REBUILD (R371, R378). -/
def runFarEffect (id trig j : Nat) (s : State) : State :=
  let s := s.farConflicts
  match (s.core id).xfer trig with
  | none => s
  | some x =>
    if x.gone.contains j || !x.farWrite then s
    else match mget x.data j with
      | none => s
      | some c =>
        let rg := s.focus.rg
        let rs := x.dueRuns j s.sc
        let s1 := if x.mod && j == 0 && !s.fr.apply.isEmpty then s.applyJournal rg else s
        let s2 := s1.lostDue rg s.sc (rs.flatMap (fun r => leafDies r.leaf)) true
        let s3 := if (s2.fr.jEntry (s.fr.d.relOf id) x).isSome then s2.holdWrite (s.fr.d.relOf id) x j rs c
          else (s2.writeRuns rs c).watchOutside (some rg) (rs.map (fun r => (r.h, r.off, r.len))) 7 rg |>.modFr (fun r => r.cutApply rs)
        s3.noteAll rg 2 (rs.map (fun r => (x.vaAt j r.pos, r.len))) s.sc (x.writer id)

end Sys2Proof.Machine
end

