-- ==== Sys2Proof/Machine/Agents.lean ====
section
/-! DEFINITION. Memory as agents outside the regions read and write it: the scheduler, the service processors, host harts and devices
(spec/05_memory.md R132 to R142; spec/14_system_state.md R317; spec/16_faults_recovery.md R371, R374, R401). A write takes effect, and is visible,
in one step (log entry 9). -/
namespace Sys2Proof.Machine

/-! ## Far memory by physical address -/

/-- `n` bytes at a far physical address; none where a byte is lost. -/
def State.readFpa (s : State) (a n : Nat) : Option (List Byte) :=
  let known := s.knownProt
  let bs := (List.range n).map (fun i => s.rawByte known (fpaDie (a + i)) (fpaOfs (a + i)))
  if bs.all Option.isSome then some (bs.map (fun b => b.getD 0)) else none
/-- A little-endian number at a far physical address. -/
def State.fpaNum (s : State) (a n : Nat) : Nat := ofBytes ((s.readFpa a n).getD [])
/-- A 64-bit word at a far physical address. -/
def State.fpaWord (s : State) (a : Nat) : W64 := BitVec.ofNat 64 (s.fpaNum a 8)

/-- Write one byte of a logical H-die for an agent outside the regions; none where the write is not performed (R371, R401). A group that a spare is
still rebuilding is rebuilt first, and then written (R401). -/
def State.writeRaw (s : State) (prots : List (BitVec 64)) (h off : Nat) (b : Byte) : Option State :=
  match leafAt prots h off with
  | some l => match leafData l h off with
    | some v =>
      if 2 < s.lostStripes l (v / 1024) (v % 256) then none
      else some ((if s.groupRebuilding l (v / 1024) (v % 256) then s.fillNow l (v / 1024) else s).writeFarByte l v b none)
    | none => if s.hGone h then none else some (s.pokeFar (s.hKey h off) b none)
  | none => if s.hGone h then none else some (s.pokeFar (s.hKey h off) b none)

def State.writeRaws (s : State) (prots : List (BitVec 64)) (h : Nat) : Nat → List Byte → Option State
  | _, [] => some s
  | off, b :: bs => match s.writeRaw prots h off b with | some t => t.writeRaws prots h (off + 1) bs | none => none

/-- A single bad stripe that a read by an agent outside the regions finds on an H-die in service is rebuilt in place (R374). -/
def State.healSpan (s : State) (a n : Nat) : State :=
  if s.farP.isEmpty then s
  else
    let prots := s.protPages
    let key := s.hKey (fpaDie a) (fpaOfs a)
    (s.farP.filter (fun q => decide (key ≤ q.1) && decide (q.1 < key + n))).foldl (fun t q =>
      let off := fpaOfs a + (q.1 - key)
      match leafAt prots (fpaDie a) off with
      | some l => t.healAt l ((off - leafOfs l) / 512) ((off - leafOfs l) % 256)
      | none => t) s
/-- The same for each run, by address and length, that the scheduler or the unit of a walk reads in one action. -/
def State.healed (s : State) (runs : List (Nat × Nat)) : State := if s.farP.isEmpty then s else runs.foldl (fun t q => t.healSpan q.1 q.2) s

/-- Write bytes at a far physical address: none where the write is not performed. A write that covers a whole unit of a spare clears its lost
mark (R371), and the watchpoints of regions see it. -/
def State.writeFpa (s : State) (a : Nat) (bs : List Byte) (cls ident : Nat) : Option State :=
  let prots := s.protPages
  let h := fpaDie a
  let off := fpaOfs a
  ((s.clearUnits (s.hKey h off) bs.length).writeRaws prots h off bs).map (fun t => t.watchOutside none [(h, off, bs.length)] cls ident)

/-- The identity with which the scheduler and the service processors write memory: the control die in service (spec/05_memory.md R142, log entry 29). -/
def State.dieIdent (s : State) : Nat := if s.sched.east then 256 else 0

/-! ## Near memory -/

/-- The regions that run or are held and whose grant holds a near address. A saved region has no cores, and so no guards and watchpoints. -/
def State.nearOwners (s : State) (a : Nat) : List Nat :=
  (s.regions.filter (fun r => (r.2.d.state == 2 || r.2.d.state == 3) && r.2.d.granted a)).map Prod.fst
/-- The pieces of `n` bytes of near memory at `a` that lie in one bank each, as address and length; fuel bounds them. -/
def bankPieces : Nat → Nat → Nat → List (Nat × Nat)
  | 0, _, _ => []
  | k + 1, a, n => if n = 0 then [] else let m := min n (2 ^ 20 - a % 2 ^ 20); (a, m) :: bankPieces k (a + m) (n - m)

/-- Write bytes of near memory from outside the regions. Guards and watchpoints of the regions that hold the banks see it, with the stitch at which
the segment root registers the report (R140, R141). DESIGN CHOICE (log entry 48): the spec does not say how long the bridge's report takes to reach
the segment root; the model registers it in the region's present stitch. -/
def State.nearOutside (s : State) (a : Nat) (bs : List Byte) (cls ident : Nat) : State :=
  let w := writeChunk s.near s.nearP a ⟨bs, []⟩
  let s1 := { s with near := w.1, nearP := w.2 }
  let ps := bankPieces (bs.length / 2 ^ 20 + 2) a bs.length
  (ps.flatMap (fun p => s.nearOwners p.1)).eraseDups.foldl (fun t rg =>
    t.noteAll rg 1 (ps.filter (fun p => (t.rgn rg).d.granted p.1)) (t.rgn rg).clk.sc { own := cls, ident := ident }) s1

/-! ## Waiting events -/

/-- Put an event into the list of those due in wall-clock time, unless it waits there already. -/
def State.laterOnce (s : State) (i : Instr) : State := if s.inputs.any (fun p => p.2 == i) then s else s.later i
/-- Put an event into the list for a given cycle. -/
def State.atCycle (s : State) (cyc : Nat) (i : Instr) : State := { s with inputs := insertBy (fun p => p.1) (cyc, i) s.inputs }

/-! ## What a hold record demands (R47, R355, R358) -/

/-- Is a cause a hold, or a fault that allows a thaw (R47)? -/
def Cause.mayThaw (c : Cause) : Bool := [0x70, 0x71, 0x72, 0x73, 0x30, 0x40, 0x41, 0x42, 0x43].contains c.code
/-- Is it a fault? -/
def Cause.isFault (c : Cause) : Bool := decide (c.code < 0x70)
/-- The reason of an unpick that a class U cause demands (R354, R357, R358). -/
def Cause.killReason (c : Cause) : Option Nat :=
  if c.code = 0x60 then some 9
  else if c.code = 0x23 then some 10
  else if c.code = 0x50 then (if [10, 11, 13].contains c.cls then some 5 else if c.cls = 12 then some 6 else none)
  else none
/-- Does a cause wait for the verdict of the service processors before its region rolls back: an uncorrectable error in core state, or the loss of a
die or of half of an M-die, which `tag` marks (ladder rows 2, 3, 5 and 6, R368), until the verdict has been acted on? -/
def Cause.voted (c : Cause) : Bool := c.code == 0x50 && !c.judged && (decide (c.cls ≤ 5) || c.tag == 1)

/-- The marks that the record of a rollback leaves (R356). -/
def Region.marks (r : Region) : List (Nat × Nat × Nat) := (r.seg.causes.filter Cause.isFault).map (fun c => (c.code, c.core, c.cs))

/-- Is a fault one of those whose record rolled the region back to a domain that is still open, or that closes (R356)? -/
def Region.again (r : Region) (m : Nat × Nat × Nat) : Bool :=
  r.doms.any (fun d => d.retry.contains m) || (match r.closing with | some (_, d) => d.retry.contains m | none => false)
/-- The reason with which the record of a region ends it (R354 to R356): a cause of class U, a loss, or a fault of any class that has come again. -/
def Region.ending (r : Region) : Option Nat :=
  match r.seg.causes.findSome? Cause.killReason with
  | some k => some k
  | none => if r.marks.any r.again then some 2 else none

/-- May the region thaw: every cause is resolved, none forbids it or ends the region, and no vote keeps it held (R47, R312, R356, R367)? -/
def Region.canThaw (r : Region) : Bool := r.seg.held && !r.kept && r.ending.isNone && r.seg.causes.all (fun c => c.resolved && c.mayThaw)

/-- What the device does on its own account with a held region, once the record has changed: unpick for a cause of class U or a repeated fault, roll
back for one of class P or H that awaits no verdict, thaw under AUTO (R312, R323, R355). -/
def State.settle (s : State) (rg : Nat) : State :=
  let r := s.rgn rg
  if !r.seg.held || r.d.state != 3 then s
  else match r.ending with
    | some k => s.laterOnce (.unpick rg k)
    | none =>
      if r.kept then s
      else if r.seg.causes.any (fun c => !c.mayThaw && !c.voted) && r.seg.causes.all (fun c => !c.voted) then s.laterOnce (.rollback rg)
      else if r.d.auto && r.seg.causes.all (fun c => c.code == cXLATE && c.resolved) then s.laterOnce (.thaw rg)
      else if r.pre.saving && r.seg.causes.all (fun c => c.resolved || c.code == cPREEMPT) then s.laterOnce (.preemptSave rg)
      else s

/-- A change of the causes of a held region: the interrupt message of R392, and what follows from it. -/
def State.causesChanged (s : State) (rg : Nat) : State := if (s.rgn rg).seg.held then (s.msi 0 rg).settle rg else s

/-- Add a fault or cause from outside the timetable to a region, with its consequences when it is held. -/
def State.raiseOutside (s : State) (rg core cs : Nat) (f : FaultInfo) : State := (s.raise rg core cs f).causesChanged rg

end Sys2Proof.Machine
end

