-- ==== Sys2Proof/Machine/PlanObject.lean ====
section
/-! DEFINITION. Plan objects (spec/15_region_scheduler.md R339): what they hold, the engines that they name (spec/11_puzil.md R268), and the loading of
their words. -/
namespace Sys2Proof.Machine

/-- A rank as a plan object gives it: its engine's kind, region-relative die, its words, and its valid links by number. -/
structure RankSpec where
  kind  : Nat
  u     : Nat
  v     : Nat
  words : List Nat
  links : Map Nat := []
deriving DecidableEq, Repr

/-- Read a plan object of an image at `img`, to which the offsets of its op words are relative; none where it cannot be read, is misaligned, or its
head is malformed. -/
def State.planObject (s : State) (img fpa : Nat) : Option (List RankSpec) :=
  match s.readFpa fpa 16 with
  | none => none
  | some h =>
    if fpa % 8 ≠ 0 ∨ ofBytes (h.drop 2) ≠ 0 then none
    else some ((List.range (ofBytes (h.take 2))).map (fun k =>
      let num := fun o n => s.fpaNum (fpa + 16 + 80 * k + o) n
      { kind := num 0 1, u := num 1 1, v := num 2 1
        words := (List.range (num 8 4)).map (fun i => s.fpaNum (img + num 4 4 + 16 * i) 16)
        links := (List.range 16).filterMap (fun i => let l := num (16 + 4 * i) 4; if l.testBit 31 then some (i, l) else none) }))

/-- Does a region hold a core of a logical die? -/
def Descr.onDie (d : Descr) (u v : Nat) : Bool :=
  decide (d.x0 < 8 * u + 8) && decide (8 * u < d.x0 + d.wid) && decide (d.y0 < 8 * v + 8) && decide (8 * v < d.y0 + d.hgt)

/-- The part of the package on which an engine of a region lies. An engine key is that of the bridge, u + 12 v for MH(u,v) and 96 more for MV(u,v),
and 192 (q + 1) more on another package, which holds part q. -/
def enginePart (d : Descr) (e : Nat) : Nat := if e < 192 then d.pkg else e / 192 - 1
/-- The engine that a rank names, if R268 lets the region use it: the MH of a die of the region, or the MV between two rows of which the region
holds one; the dies of a multi-package region count on upwards through its parts (spec/18_links_host_boot.md R382). The MV below the region's lowest
row has V = -1, byte 255 (log entry 26). -/
def RankSpec.engine (k : RankSpec) (d : Descr) : Option Nat :=
  let q := if 1 < d.npkg then k.v / 8 else d.pkg
  let kv := if 1 < d.npkg then k.v % 8 else k.v
  let u := d.x0 / 8 + k.u
  let v := if k.kind = 1 ∧ kv = 255 then d.y0 / 8 - 1 else d.y0 / 8 + kv
  let far := if q = d.pkg then 0 else 192 * (q + 1)
  if 1 < d.npkg ∧ d.npkg ≤ q then none
  else if k.kind = 0 then (if d.onDie u v then some (far + u + 12 * v) else none)
  else if k.kind = 1 ∧ v ≤ 6 ∧ (d.onDie u v ∨ d.onDie u (v + 1)) ∧ (kv ≠ 255 ∨ 0 < d.y0 / 8) then some (far + 96 + u + 12 * v)
  else none

/-- Load words into an engine's program memory; that of an engine on another package is not held here. -/
def State.loadWords (s : State) (e base : Nat) (ws : List Nat) : State :=
  if 192 ≤ e then s else
  let m := (List.range ws.length).foldl (fun m k => mset m (base + k) (BitVec.ofNat 128 (ws.getD k 0))) (mgetD s.engines e [])
  { s with engines := mset s.engines e m, mvP := s.mvP.filter (fun q => decide (q.1 < opKey e base) || decide (opKey e (base + ws.length) ≤ q.1)) }

/-- Set a bank of an engine's local memory to zero (R273); that of an engine on another package is not held here. -/
def State.zeroBank (s : State) (e b : Nat) : State :=
  if 192 ≤ e then s else
  let a := engBase e + 2 ^ 20 * b
  let out := fun (k : Nat) => decide (k < a) || decide (a + 2 ^ 20 ≤ k)
  if e < 96 then { s with near := s.near.filter (fun p => out p.1), nearP := s.nearP.filter (fun p => out p.1) }
  else { s with mv := s.mv.filter (fun p => out p.1), mvP := s.mvP.filter (fun p => out p.1) }

/-- Set the plans of a region that a test names up again under their handles, from their objects; every local byte that they have reserved and no
other resident plan of the region has is zero (spec/01_panel.md R21; R273; spec/16_faults_recovery.md R358 class 8, R370). -/
def State.replan (s : State) (rg : Nat) (which : Plan → Bool) : State :=
  let ps := (s.rgn rg).plans
  let other := fun (b : Nat × Nat) => ps.any (fun q => !which q && q.banks.contains b)
  (ps.filter which).foldl (fun s p =>
    let s1 := match s.planObject (s.rgn rg).pl.image p.fpa with
      | some ks => (List.range p.ranks.length).foldl (fun s k =>
          match p.ranks[k]?, ks[k]? with | some rk, some q => s.loadWords rk.engine rk.base q.words | _, _ => s) s
      | none => s
    (p.banks.filter (fun b => !other b)).foldl (fun s b => s.zeroBank b.1 b.2) s1) s

end Sys2Proof.Machine
end

