-- ==== Sys2Proof/Machine/Image.lean ====
section
/-! DEFINITION. Schedule images (spec/15_region_scheduler.md R339, R340): their header, tables and relocations. -/
namespace Sys2Proof.Machine

/-- A field of a launch record (R328). -/
def recField (ws : List W64) (k hi lo : Nat) : Nat := bitsOf (ws.getD k 0).toNat hi lo

/-- The header of a schedule image. -/
structure ImgHead where
  magic  : Nat
  ver    : Nat
  kind   : Nat
  npkg   : Nat
  wid    : Nat
  hgt    : Nat
  pbanks : Nat
  jcap   : Nat
  nroute : Nat
  nplan  : Nat
  nreloc : Nat
  cores  : Nat
  routes : Nat
  plans  : Nat
  mask   : Nat
  reloc  : Nat
  zeros  : Bool
deriving DecidableEq, Repr

/-- Read the header of an image. -/
def State.imgHead (s : State) (img : Nat) : ImgHead :=
  let b := (s.readFpa img 1024).getD []
  let num := fun o n => ofBytes ((b.drop o).take n)
  { magic := num 0 4, ver := num 4 2, kind := num 6 1, npkg := num 7 1, wid := num 8 1, hgt := num 9 1, pbanks := num 12 1, jcap := num 16 4
    nroute := num 20 4, nplan := num 24 4, nreloc := num 28 4, cores := num 32 8, routes := num 40 8, plans := num 48 8, mask := num 56 8
    reloc := num 64 8, zeros := num 10 2 == 0 && num 13 3 == 0 && num 72 56 == 0 && num 896 128 == 0 && b.length == 1024 }
/-- The grant masks of an image by region die u + 12 v, those that are not zero. -/
def State.imgGrant (s : State) (img : Nat) : Map W64 :=
  (List.range 96).filterMap (fun k => let w := s.fpaWord (img + 128 + 8 * k); if w = 0 then none else some (k, w))

/-- A core's entry of the core table. -/
structure ImgCore where
  text  : Nat
  tlen  : Nat
  entry : Nat
  lt    : Nat
  seg   : Nat
  nseg  : Nat
  td    : Nat
  zero  : Bool
deriving DecidableEq, Repr
def State.imgCore (s : State) (img table c : Nat) : ImgCore :=
  let num := fun o => s.fpaNum (img + table + 32 * c + o) 4
  { text := num 0, tlen := num 4, entry := num 8, lt := num 12, seg := num 16, nseg := num 20, td := num 24, zero := num 28 == 0 }

/-- The scratchpad segments of a core: address, bytes, and where the segment ends in the image; `n` is their number. -/
def State.imgSegs (s : State) (img : Nat) : Nat → Nat → List (Nat × Nat × Nat)
  | 0, _ => []
  | n + 1, o =>
    let a := s.fpaNum (img + o) 4
    let l := s.fpaNum (img + o + 4) 4
    (a, l, o + 8) :: s.imgSegs img n (o + 8 + (l + 7) / 8 * 8)

/-- The words of the relocations of an image. -/
def State.relocWords (s : State) (img : Nat) (h : ImgHead) : List Nat := (List.range h.nreloc).map (fun i => s.fpaNum (img + h.reloc + 8 * i) 8)
/-- The relocations of an image: core index, whether the address is of the scratchpad, the address, and the plan's index. -/
def State.imgRelocs (s : State) (img : Nat) (h : ImgHead) : List (Nat × Bool × Nat × Nat) :=
  (s.relocWords img h).map (fun w =>
    (bitsOf w 47 32, w.testBit 56, bitsOf w 31 0, bitsOf w 55 48))

/-- Does a plan entry of an image name an object that lies in its first `len` bytes, with its ranks and their op words (R339)? -/
def State.planEntryOk (s : State) (img len : Nat) (h : ImgHead) (i : Nat) : Bool :=
  let e := img + h.plans + 16 * i
  let o := s.fpaNum e 8
  let n := s.fpaNum (e + 8) 4
  let k := s.fpaNum (img + o) 2
  s.fpaNum (e + 12) 4 == 0 && decide (o + n ≤ len) && decide (16 + 80 * k ≤ n) &&
    (List.range k).all (fun j => let a := img + o + 16 + 80 * j; decide (s.fpaNum (a + 4) 4 + 16 * s.fpaNum (a + 8) 4 ≤ len))

/-- The handle of the plan with an index in the image. -/
def Region.handleOf (r : Region) (p : Nat) : Nat := ((r.plans.find? (fun q => q.index == p)).map (fun q => q.handle)).getD 0

/-- The relocations of one core and one space, as addresses with the handles to write there (R340). -/
def State.patches (s : State) (r : Region) (img : Nat) (h : ImgHead) (c : Nat) (scr : Bool) : List (Nat × Nat) :=
  ((s.imgRelocs img h).filter (fun q => q.1 == c && q.2.1 == scr)).map (fun q => (q.2.2.1, r.handleOf q.2.2.2))

/-- The image of a region, as a run of far memory: its address, and LEN of its launch record. -/
def State.imageRun (s : State) (rg : Nat) : Nat × Nat := let p := (s.rgn rg).pl; (p.image, max 1024 (recField (mgetD s.sched.slots p.sid {}).words 2 31 0))

/-- The instruction memory of a core of a region as its image gives it, with the relocations patched (R339 to R341, R348). -/
def State.textOf (s : State) (rg c : Nat) : Mem :=
  let r := s.rgn rg
  let img := r.pl.image
  let h := s.imgHead img
  let e := s.imgCore img h.cores c
  (s.patches r img h c false).foldl (fun m q => Memory.writeLE m q.1 4 q.2) (Memory.writeN [] 0 ((s.readFpa (img + e.text) e.tlen).getD []))

end Sys2Proof.Machine
end

