-- ==== Sys2Proof/Machine/Domains.lean ====
section
/-! DEFINITION. Containment domains: opening, closing, rollback and the application of the journal (spec/10_transfer_sync_ops.md R258 to R262;
spec/16_faults_recovery.md R356, R359 to R365), and the end of a region by unpick (spec/15_region_scheduler.md R349). -/
namespace Sys2Proof.Machine

/-! ## What a liveness entry names (spec/03_core.md R87; spec/09_matrix_ops.md R237) -/

/-- The g, v and p registers that an entry names; the others read zero. -/
def Regs.live (r : Regs) (e : Nat) : Regs :=
  { g := Vector.ofFn (fun i => if liveG e i.val then r.g.get i else 0)
    v := Vector.ofFn (fun i => if liveV e i.val then r.v.get i else 0)
    p := Vector.ofFn (fun i => if liveP e i.val then r.p.get i else 0) }

/-- Clear DIRTY of tiles. -/
def Specials.clean (p : Specials) (on : Nat → Bool) : Specials :=
  { p with acfg := Vector.ofFn (fun i => if on i.val then p.acfg.get i &&& 0xbfffffffffffffff else p.acfg.get i) }

/-- Is a tile named by an entry, or targeted by an unfinished operation in stitch `t` (R237)? -/
def Core.tileKept (c : Core) (e t n : Nat) : Bool := liveT e n || (c.mx.targeted n t).isSome

/-- The tiles as a restore leaves them: those kept come from `src`, every other is zero and so is its copy, and every tile is clean (R237). -/
def Core.restoreTiles (c : Core) (src : Map (BitVec 32)) (keep : Nat → Bool) : Core :=
  let t := src.filter (fun p => keep (p.1 / 4096))
  { c.unmark (fun q => decide (0x10000 ≤ q) && decide (q < 0x20000) && !keep ((q - 0x10000) / 4096)) with tiles := t, saved := t, sp := c.sp.clean (fun _ => true) }

/-! ## Dies, seams and ease (R369) -/

/-- The logical dies of a rectangle of cores. -/
def rectDies (x y w h : Nat) : List Nat :=
  (List.range ((y + h - 1) / 8 - y / 8 + 1)).flatMap (fun j => (List.range ((x + w - 1) / 8 - x / 8 + 1)).map (fun i => x / 8 + i + 12 * (y / 8 + j)))
/-- Does a region use a seam, router output or port direction: a route or a link of a plan, window accesses included, crosses it? -/
def Region.usesSeam (r : Region) (seam : Nat) : Bool := r.routes.any (fun q => (q.2.uses r.d).contains seam) || r.plans.any (fun p => p.chans.any (fun c => c.2.1 == seam))
/-- The program channels that a region uses there in one stitch at most: those that some route or link takes. -/
def Region.seamChans (r : Region) (seam : Nat) : Nat :=
  ((List.range 192).filter (fun c =>
    r.routes.any (fun q => decide (q.2.ch ≤ c) && decide (c < q.2.ch + q.2.width) && (q.2.uses r.d).contains seam) ||
    r.plans.any (fun p => p.chans.any (fun q => q.2.1 == seam && decide (q.2.2 ≤ c) && decide (c < q.2.2 + 24))))).length
/-- Does it cross a fabric port, either way (R381, R383)? -/
def Region.usesPort (r : Region) (h : Nat) : Bool := r.usesSeam (2 ^ 16 + 2 * h) || r.usesSeam (2 ^ 16 + 2 * h + 1)
/-- The seam directions of a die, in and out: to and from its neighbours, or the H-die at the end of its column. -/
def dieSeams (k : Nat) : List Nat :=
  (List.range 4).map (fun i => 4 * k + i) ++ [4 * (if k < 84 then k + 12 else k + 24) + 2, 4 * (if k < 12 then 96 + k else k - 12)] ++
    (if k % 12 < 11 then [4 * (k + 1) + 3] else []) ++ (if 0 < k % 12 then [4 * (k - 1) + 1] else [])

/-- The bypass tracks by which a logical H-die joins its logical column, by a number of their own, 0 where it joins by its own seam: it lies at the end of
the physical column that holds that logical column (spec/01_panel.md R22). -/
def Maps.hTracks (m : Maps) (h : Nat) : Nat :=
  let p := m.hmap.get (Fin.ofNat 24 h)
  let c := m.dieCol (h % 12)
  if p = c + 13 * (h / 12) then 0 else 1 + 13 * p + c
/-- The physical seam direction that serves a logical one, which `Maps.seams` is keyed by (spec/01_panel.md R15, R19, R22): 4 times the physical die
left, at 13 times its row plus its column, plus the direction; the physical H-die p counts as die 104 + p. Bypass tracks are no seam of a die, and are
counted 2^10 and more above it: 2^10 for those over a darned column, 2^10 times a number of their own for those of an H-die. -/
def Maps.physSeam (m : Maps) (n : Nat) : Nat :=
  let k := n / 4
  let o := n % 4
  let u := k % 12
  if 96 ≤ k then 4 * (104 + m.hmap.get (Fin.ofNat 24 (k - 96))) + o + 2 ^ 10 * m.hTracks (k - 96)
  else
    4 * (m.dieCol u + 13 * (k / 12)) + o + 2 ^ 10 *
      (if o = 0 then (if k / 12 = 7 then m.hTracks (12 + u) else 0)
       else if o = 2 then (if k / 12 = 0 then m.hTracks u else 0)
       else if o = 1 then (if m.dieCol (u + 1) = m.dieCol u + 1 then 0 else 1)
       else if m.dieCol u = m.dieCol (u - 1) + 1 then 0 else 1)
/-- The logical seam direction that a physical one serves. -/
def Maps.logSeam (m : Maps) (q : Nat) : Option Nat := (List.range 480).find? (fun n => m.physSeam n == q)

/-- The logical column west of the logical seam that MH column `j` drives (spec/01_panel.md R19): its own as long as no column left of it is darned,
the one before the bypass where it ends one, and the one before it right of a darned column. -/
def Maps.mhSeam (m : Maps) (j : Nat) : Option Nat :=
  match m.darned with
  | none => some j
  | some c => if j + 1 < c then some j else if j = c ∨ j + 1 = c then (if c = 0 then none else some (c - 1)) else some (j - 1)
/-- The logical seam directions that a bridge drives, by its engine key. -/
def Maps.seamsOf (m : Maps) (br : Nat) : List Nat :=
  let k := br % 96
  if br < 96 then (match m.mhSeam (k % 12) with | some u => [4 * (u + k / 12 * 12) + 1, 4 * (u + 1 + k / 12 * 12) + 3] | none => []) else [4 * k, 4 * (k + 12) + 2]
/-- Does a region use a bridge, by its engine key: a granted bank, a plan's engine, or a seam that it drives, which a route, a link or a window of a
plan crosses (R368 row 5)? -/
def Region.usesBridge (r : Region) (m : Maps) (br : Nat) : Bool :=
  (decide (br < 96) && mgetD r.d.grant (br % 96) 0 != 0) || r.plans.any (fun p => p.ranks.any (fun q => q.engine == br)) || (m.seamsOf br).any r.usesSeam

/-- The channels of a logical seam direction that still work: of 256, the half that a bridge on it has lost, and the failed ones, are gone (R369). -/
def Maps.working (m : Maps) (n : Nat) : Nat :=
  256 - 128 * (m.halves.foldl (fun c h => if (m.seamsOf h.1).contains n then max c (m.halves.filter (fun q => q.1 == h.1)).length else c) 0) - mgetD m.seams (m.physSeam n) 0
/-- The ease factor for a seam direction with `n` working channels (R369); below 24 none will do. -/
def seamK (n : Nat) : Nat := if n < 24 then 9 else ceilDiv 192 (min n 192)
/-- The ease factor that the repairs in force require of a region (R369; spec/02_stitch_time.md R53): a lost half of a bridge that it uses, the
working channels of the seams that it crosses, a remote spare; more than 8 means that it is not run. -/
def State.repairK (s : State) (r : Region) : Nat :=
  let dies := rectDies r.d.x0 r.d.y0 r.d.wid r.d.hgt
  let half := if s.maps.halves.any (fun h => r.usesBridge s.maps h.1) then 2 else 1
  let hurt := s.maps.halves.flatMap (fun h => s.maps.seamsOf h.1) ++ s.maps.seams.filterMap (fun q => s.maps.logSeam q.1)
  let seam := hurt.foldl (fun m n => if r.usesSeam n then max m (seamK (s.maps.working n)) else m) 1
  let far := s.maps.remote.foldl (fun m q =>
    if dies.contains q.1 then max m (max (ceilDiv q.2.2 24) (ceilDiv ((dieSeams q.1).foldl (fun c x => max c (r.seamChans x)) 0) 3)) else m) 1
  max half (max seam far)
/-- The largest number of program channels that a region uses across one fabric port direction in one stitch (spec/18_links_host_boot.md R384). -/
def Region.fabricChans (r : Region) : Nat := (List.range 48).foldl (fun m q => max m (r.seamChans (2 ^ 16 + q))) 0
/-- The ease factor that a region needs as it stands (R53, R369, R384). -/
def State.loadK (s : State) (r : Region) : Nat := max (s.repairK r) (if r.d.band = 3 then ceilDiv r.fabricChans 3 else 1)
/-- A region's ease after a repair or a change of its plans, k - 1: never less than before (R53). -/
def State.easeAfter (s : State) (r : Region) : Nat := max r.d.ease (min 7 (s.loadK r - 1))

/-! ## Opening (R258, R259, R360) -/

/-- What a snapshot holds of a core: memory outside the core's registers and engines is not part of it. -/
def Core.snap (c : Core) : Core := { c with scr := [], scrP := [], imem := [], imemP := [], tce := [], frec := [], ovf := false }

/-- The check of an operation that was issued in stitch `t`. -/
def Region.sameAt (r : Region) (op : SameOp) (t : Nat) : Option SameCheck := r.same.find? (fun k => k.op == op && k.at_ == t)

/-- The copies of a domain, packed core by core into its quarter (R360), and the bytes that they take. -/
def State.packCopies (s : State) (r : Region) (t : Nat) (l : List SameIssue) : List CopyBeat × Nat :=
  (l.foldl (fun l x => insertBy (fun (i : SameIssue) => i.core) x l) []).foldl (fun acc x =>
    let id := r.d.coreAt x.core
    let bs := copyBeatsOf t x.core id ((s.core id).liveEntry x.entry) x.a x.len acc.2
    (acc.1 ++ bs, acc.2 + bs.foldl (fun n b => n + b.len) 0)) ([], 0)

/-- The copies of a new domain join the next commit of their cores (R249): the finish is the read stitch of the core's last beat. -/
def State.joinCopies (s : State) (r : Region) (t : Nat) (copies : List CopyBeat) : State :=
  r.d.coreIds.foldl (fun s id =>
    match (copies.filter (fun b => b.core == r.d.relOf id)).map (fun b => b.due) with
    | [] => s
    | l => s.modCore id (fun c => { c with xf := { c.xf with opens := c.xf.opens ++ [l.foldl max t] } })) s

/-- Open a domain after a cdopen in stitch `t`: its snapshot is the state as a hold at t + 1 would find it, with the copies in the open group of each core
and the release that the stitch began (R258, R259). One whose copies do not fit in its quarter
is unprotected, and no copy is made (R360). A journal that still waits to be applied is applied first, for the new domain's entries take its place. -/
def State.openDomain (s : State) (rg t : Nat) (k : SameCheck) : State :=
  let s := if (s.rgn rg).clk.cdlev = 0 ∧ (s.rgn rg).closing.isSome then s.applyJournal rg else s
  let r := s.rgn rg
  let lvl := r.clk.cdlev
  let (cs, n) := s.packCopies r t k.cores
  let fits := decide (n ≤ r.d.pbanks * 2 ^ 18) && r.d.pbanks != 0
  let copies := if fits then cs else []
  let s := s.joinCopies r t copies
  let d : Domain :=
    { level := lvl, open_ := t + 1, clk := { sc := t + 1, ssc := r.clk.ssc + 1, cdlev := lvl }, relDue := r.seg.relDue
      cores := r.d.coreIds.map (fun id => (id, (s.core id).snap))
      names := k.cores.map (fun x => (x.core, (s.core (r.d.coreAt x.core)).liveEntry x.entry))
      near := k.cores.map (fun x => (x.core, x.a, x.len))
      copies := copies, unprot := !fits, same := r.same }
  s.setRgn rg { r with doms := r.doms ++ [d], clk := { r.clk with cdlev := lvl + 1 } }

/-- Write the headers of the journal's entries that lie in near memory again, as their levels now stand (R361). -/
def State.headers (s : State) (rg : Nat) : State :=
  (s.rgn rg).journal.foldl (fun s e => if e.beats.isEmpty then s else s.noteArea rg (s.rgn rg).d.jrnBanks e.pos ⟨toBytes 32 e.header, []⟩ none) s

/-- Close the outermost domain `d`, or all of them from it inward, after stitch `t`: the journal waits to be applied. An earlier journal that still
waits is applied first; one that was found poisoned stays with its domain, the rollback target (R362). -/
def State.closeLast (s : State) (rg t : Nat) (d : Domain) : State :=
  let (n, s1) := (if (s.rgn rg).closing.isSome then s.applyJournal rg else s).fresh
  s1.modRgn rg (fun r => { r with
    doms := [], apply := r.apply ++ r.journal, journal := [], closing := if r.closing.isSome then r.closing else some (t, d)
    applyAt := t + 1 + Config.applyAfter n % (640 + r.d.farAdd), clk := { r.clk with cdlev := 0 } })

/-- Close the innermost domain after a cdclose in stitch `t` (R261): its entries pass to the enclosing one, and at the outermost close the journal
waits to be applied. -/
def State.closeDomain (s : State) (rg t : Nat) : State :=
  let r := s.rgn rg
  match r.doms.getLast? with
  | none => s
  | some d =>
    let rest := r.doms.dropLast
    if d.level = 0 then s.closeLast rg t d
    else (s.setRgn rg { r with
      doms := rest, clk := { r.clk with cdlev := d.level }
      journal := r.journal.map (fun e => if e.lvl = d.level then { e with lvl := d.level - 1 } else e) }).headers rg

/-- The domains that open and close at the end of stitch `t`. -/
def State.domainsAt (s : State) (rg t : Nat) : State :=
  let r := s.rgn rg
  let s1 := if (r.sameAt .cdclose t).isSome then s.closeDomain rg t else s
  match r.sameAt .cdopen t with | some k => s1.openDomain rg t k | none => s1

/-! ## Choosing the domain (R363) -/

/-- The area of a domain's copy beat in the preserve area. -/
def Region.copyArea (r : Region) (lvl : Nat) (b : CopyBeat) : Nat := lvl * r.d.pbanks * 2 ^ 18 + b.tgt

/-- Is a domain usable for a hold at `h` with earliest cause stitch `c0`? -/
def State.usable (s : State) (r : Region) (d : Domain) (c0 h : Nat) : Bool :=
  decide (d.open_ ≤ c0) && !d.unprot && !d.bad &&
    d.copies.all (fun b => b.done && decide (b.due < h) && (s.nearP.isEmpty || (s.readArea r.d.prsvBanks (r.copyArea d.level b) b.len).marks.isEmpty))

/-- The earliest cause stitch of the record. -/
def Region.firstCause (r : Region) : Nat := r.seg.causes.foldl (fun m c => min m c.cs) r.seg.holdSc

/-- The rollback target: the innermost usable domain, the one whose journal waits to be applied last (R363). The flag says that it is that one. -/
def State.target (s : State) (r : Region) : Option (Domain × Bool) :=
  let c := r.doms.reverse.map (fun d => (d, false)) ++ (match r.closing with | some (_, d) => [(d, true)] | none => [])
  c.find? (fun d => s.usable r d.1 r.firstCause r.seg.holdSc)

/-! ## Plans (spec/11_puzil.md R277) -/

/-- Abort an armed or running plan: it is Resident again, and its last completion stitch is the one before the firing's release. -/
def Plan.abort (p : Plan) : Plan :=
  let ranks := p.ranks.map (fun k => { k with inbox := [], writes := [], tokens := [], void := [], bad := [] })
  match p.rel with
  | some r => { p with rel := none, run := false, fin := r, fired := none, ranks := ranks }
  | none => { p with fired := none, ranks := ranks }

/-! ## Unpick (spec/15_region_scheduler.md R349, R350; R357) -/

/-- Free a core: it has no region and its state is zero; its fault records stay (R349, R357). -/
def Core.freed (c : Core) : Core := { frec := c.frec, ovf := c.ovf }

/-- The KILLED record (R354, R357): the reason, and the fault of the record that led to it: the one that demands this reason, or that has come again;
else the first that does not allow a thaw. No fault led to an unpick that was commanded. -/
def Region.killedInfo (r : Region) (reason : Nat) : FaultInfo :=
  let fs := r.seg.causes.filter Cause.isFault
  let led := fun (c : Cause) => c.killReason == some reason || (reason == 2 && r.again (c.code, c.core, c.cs))
  let f := if reason = 1 then none else (fs.find? led).or (fs.find? (fun c => !c.mayThaw))
  { code := 0x61, w5 := reason, w6 := (f.map Cause.code).getD 0, w7 := (f.map Cause.cs).getD 0 }

/-- Is a region being unpicked: in STATE 6, or saved and without its kept state? -/
def Region.dying (r : Region) : Bool := r.d.state == 6 || (r.d.state == 4 && r.saved.isNone)

/-- The actions that wait for a region and that its unpick ends; the unpick command of the window, which has still to be answered, goes on
(spec/15_region_scheduler.md R333). -/
def endsWith (rg : Nat) (i : Instr) : Bool :=
  match i with
  | .unpick n reason => n == rg && reason != 1
  | i => [Instr.regionLoad rg, .regionRelease rg, .rollback rg, .thaw rg, .preemptSave rg, .restore rg, .scheduleEnd rg].contains i

/-- What the scheduler tells the schedulers of the other packages of a region (spec/18_links_host_boot.md R385): 11 its placement, 12 its release, 13
its unpick. -/
def State.tellParts (s : State) (d : Descr) (kind rg : Nat) : State := if 1 < d.npkg then s.send (.report kind rg) else s

/-- UNPICK: kill a region (R349). A region that is free or already unpicking is left alone; of a saved one only steps 3 to 6 are done: its STATE
stays, and it has no cores to free and no origin core to record at (R350). -/
def State.unpick (s : State) (rg reason : Nat) : State :=
  let r := s.rgn rg
  if r.d.state = 0 ∨ r.dying then s
  else
    let o := r.d.coreAt 0
    let ds := r.stamp r.clk.sc
    let s1 := if r.d.state = 4 then s
      else r.d.coreIds.foldl (fun s id => s.modCore id Core.freed) (s.modCore o (fun c => c.addFRec (mkFRec s.maps rg o ds ds (r.killedInfo reason))))
    let s2 := s1.setRgn rg { r with
      d := { r.d with state := if r.d.state = 4 then 4 else 6 }, seg := {}, pre := {}, same := [], doms := [], closing := none, poisoned := false, journal := [], apply := []
      saved := none, routes := r.routes.map (fun q => (q.1, { q.2 with on := false })), plans := [], hung := false, work := {}
      pl := { r.pl with reason := reason, purge := 0 } }
    let cut := { s2 with
      focus := if s2.focus.rg = rg then { s2.focus with moves := [] } else s2.focus
      inputs := s2.inputs.filter (fun p => !endsWith rg p.2) }
    (cut.tellParts r.d 13 rg).atCycle (cut.pcyc + 4096 * (r.d.ease + 1)) (.unpickSweepEnd rg)

/-- A region that would need an ease factor above 8 is not run: it is unpicked for the resource that it has lost, and its schedule is placed again
(spec/02_stitch_time.md R53; R369; log entry 35). -/
def State.placeAgain (s : State) (rg : Nat) : State :=
  if (s.rgn rg).d.state = 0 ∨ (s.rgn rg).dying then s else (s.unpick rg 5).modRgn rg (fun r => { r with pl := { r.pl with again := true } })

/-! ## The save area (spec/15_region_scheduler.md R346; spec/09_matrix_ops.md R237) -/

/-- The cores and dies of a region in all its parts (R346). -/
def Descr.allCores (d : Descr) : Nat := d.ncore * max 1 d.npkg
def Descr.dieCount (d : Descr) : Nat := max 1 (d.allCores / 64)
/-- The length of a region's save area (R346). -/
def Descr.saveLen (d : Descr) : Nat := d.allCores * 2 ^ 21 + 2 ^ 20 + d.dieCount * 2 ^ 20
/-- The block of a core of this package in the save area, counted through the parts of the region (R346; spec/18_links_host_boot.md R382). -/
def Descr.blockAt (d : Descr) (c : Nat) : Nat := d.save + (c + d.pkg * d.ncore) * 2 ^ 21

/-- Write bytes of a save area, as the control die's engine, seen by the watchpoints of regions (R141). -/
def State.saveBytes (s : State) (prots : List (BitVec 64)) (a : Nat) (bs : List Byte) : State :=
  (((s.clearUnits (s.hKey (fpaDie a) (fpaOfs a)) bs.length).writeRaws prots (fpaDie a) (fpaOfs a) bs).map (fun t =>
    t.watchOutside none [(fpaDie a, fpaOfs a, bs.length)] 6 s.dieIdent)).getD s

/-- A tile as its copy holds it (R346). -/
def Core.tileBytes (c : Core) (n : Nat) : List Byte := (List.range 4096).flatMap (fun k => toBytes 4 (c.tileAt n (k / 64) (k % 64)).toNat)
/-- Write copies of tiles in the save area of a region: of core `c` and tile `n` the bytes that `f c n` gives, if any (spec/09_matrix_ops.md R237). -/
def State.setCopies (s : State) (d : Descr) (f : Nat → Nat → Option (List Byte)) : State :=
  if d.save = 0 ∨ !s.ownsAll d.part (fpaDie d.save) (fpaOfs d.save) d.saveLen then s
  else
    let prots := s.protPages
    (List.range d.ncore).foldl (fun s c => (List.range 16).foldl (fun s n =>
      match f c n with | some bs => s.saveBytes prots (d.blockAt c + 0x40000 + 16384 * n) bs | none => s) s) s
/-- Set the copies of the tiles that a test names to zero (R237). -/
def State.zeroCopies (s : State) (d : Descr) (which : Nat → Nat → Bool) : State :=
  s.setCopies d (fun c n => if which c n then some (List.replicate 16384 0) else none)

/-! ## Rollback (R364) -/

/-- A core as a rollback leaves it: the snapshot, with unnamed registers zero and tiles by R237; memory and cache entries stay (R262, R322). -/
def Core.rolledBack (now snap : Core) (entry : Nat) (t : Nat) : Core :=
  let c := { snap with scr := now.scr, scrP := now.scrP, imem := now.imem, imemP := now.imemP, tce := now.tce, rr := now.rr, regs := snap.regs.live entry }
  (c.unmark (fun q => if q < 32 then !liveG entry q else if q < 64 then !liveV entry (q - 32) else decide (q < 72) && !liveP entry (q - 64))).restoreTiles
    snap.tiles (snap.tileKept entry t)

/-- Write a copy of a domain back. -/
def State.copyBack (s : State) (r : Region) (lvl : Nat) (b : CopyBeat) : State :=
  let c := s.readArea r.d.prsvBanks (r.copyArea lvl b) b.len
  if b.near then let w := writeChunk s.near s.nearP b.addr c; { s with near := w.1, nearP := w.2 }
  else s.modCore (r.d.coreAt b.core) (fun k => let w := writeChunk k.scr k.scrP b.addr c; { k with scr := w.1, scrP := w.2 })

/-- Reload the text of a core whose instruction memory was found poisoned (R358). -/
def State.reloadText (s : State) (rg id : Nat) : State := s.modCore id (fun c => { c with imem := s.textOf rg ((s.rgn rg).d.relOf id), imemP := [] })

/-- Restore a region to a domain and restart it at the open stitch (R364). Every tile is clean, so the copies of the save area are as the tiles (R237,
R262). -/
def State.rollTo (s : State) (rg : Nat) (d : Domain) (closing : Bool) : State :=
  let r := s.rgn rg
  let lo := d.level
  let s1 := (r.seg.causes.filter (fun c => c.code == 0x50 && c.cls == 1)).foldl (fun s c => s.reloadText rg c.core) s
  let s1 := s1.replan rg (fun p => r.seg.causes.any (fun c => c.code == 0x50 && c.cls == 8 && p.ranks.any (fun k => engineId s.maps k.engine / 2 ^ 28 == c.unit / 2 ^ 28)))
  let s2 := d.cores.foldl (fun s q => s.modCore q.1 (fun c => Core.rolledBack c q.2 (mgetD d.names (r.d.relOf q.1) 0) d.open_)) s1
  let s3 := (d.copies.foldl (fun s b => s.copyBack r lo b) s2).setCopies r.d (fun c n => some ((s2.core (r.d.coreAt c)).tileBytes n))
  let d1 := { d with rolled := d.rolled + 1, retry := d.retry ++ r.marks }
  s3.setRgn rg { r with
    d := { r.d with state := 2, ease := s.easeAfter r }, clk := { d.clk with cdlev := lo + 1 }
    seg := { mask := r.seg.mask, relDue := d.relDue }, pre := {}, same := d.same
    doms := if closing then [d1] else (r.doms.filter (fun q => decide (q.level < lo))) ++ [d1]
    journal := if closing then [] else r.journal.filter (fun e => decide (e.lvl < lo))
    apply := if closing then [] else r.apply, closing := if closing then none else r.closing, poisoned := !closing && r.poisoned
    plans := r.plans.map Plan.abort, hung := false, badP := [], work := { next := s.pcyc + 1 }, saved := none }

/-- What ROLLBACK reads of far memory: the image, where it reloads a text (R358). -/
def State.rollReads (s : State) (rg : Nat) : List (Nat × Nat) :=
  if (s.rgn rg).d.state = 3 ∧ (s.rgn rg).seg.causes.any (fun c => c.code == 0x50 && c.cls == 1) then [s.imageRun rg] else []

/-- ROLLBACK of a held region: to its target, or unpick where no domain is usable or a fault has come again (R356, R363, R364). The choice is made
over the whole record as it now stands: a fault that has joined it may end the region, or wait for a vote (R355); a region that a vote without a
majority keeps held stays held (R367). -/
def State.rollback (s : State) (rg : Nat) : State :=
  let r := s.rgn rg
  if r.d.state ≠ 3 then s
  else if let some k := r.ending then s.unpick rg k
  else if r.kept || r.seg.causes.any Cause.voted then s
  else if 8 < s.loadK r then s.placeAgain rg
  else match s.target r with
    | none => s.unpick rg (if r.doms.isEmpty && r.closing.isNone then 4 else 3)
    | some (d, cl) => if d.rolled = 7 then s.unpick rg 8 else s.rollTo rg d cl

end Sys2Proof.Machine
end

