-- ==== Sys2Proof/Machine/Control.lean ====
section
/-! DEFINITION. The control of a region: hold, thaw and their causes (spec/02_stitch_time.md R41 to R47; spec/14_system_state.md R312), the drawstring's
release (R39, R254), the watchdog (R57), pre-emption (R58 to R61; spec/15_region_scheduler.md R345 to R348), the checks of same-stitch operations
(R59, R258, R261), and the release and end of a region (R33, R36, R342, R351). -/
namespace Sys2Proof.Machine

/-! ## Hold and thaw -/

/-- Has a member arrived, or does it count as arrived (R38, R254)? -/
def Core.arrived (c : Core) : Bool := c.arr.isSome || c.isHalted
/-- The members whose arrival is awaited (R304). -/
def State.awaited (s : State) (r : Region) : Nat := (r.d.coreIds.filter (fun id => r.member id && !(s.core id).arrived)).length

/-- The reply of a sysreq lands at the hold stitch, whichever it has become (spec/10_transfer_sync_ops.md R266): only it lands on sy.r. -/
def Core.replyAt (h : Nat) (c : Core) : Core :=
  { c with lands := c.lands.map (fun x => match x.tgt with | .latch .sy _ _ _ => { x with due := h } | _ => x) }

/-- The records of a core name the stitch in which its region holds, also where a cause that came after them has brought it forward (R43;
spec/14_system_state.md R315). -/
def Core.holdRecords (h : Nat) (c : Core) : Core :=
  { c with frec := c.frec.map (fun f => if f[1].toNat ≤ h then f.set 2 (BitVec.ofNat 64 h) else f) }

/-- HOLD: the region freezes at its hold stitch with everything in flight intact (R45); the record takes the state of the drawstring (R304). -/
def runHold (rg : Nat) (s : State) : State :=
  let r := s.rgn rg
  match r.seg.holdAt with
  | none => s
  | some h =>
    if r.clk.sc < h ∨ r.seg.held ∨ r.d.state ≠ 2 then s
    else
      let s1 := s.setRgn rg { r with
        d := { r.d with state := 3 }, work := { next := r.work.next }
        pre := { r.pre with saving := r.pre.point.isSome || r.pre.forced }
        seg := { r.seg with held := true, holdAt := none, holdSc := r.clk.sc, await := s.awaited r
                            toRel := match r.seg.relDue with | some d => d - r.clk.sc | none => 0 } }
      let s2 := r.d.coreIds.foldl (fun s id => s.modCore id (fun c => (c.replyAt r.clk.sc).holdRecords r.clk.sc)) s1
      (s2.msi 0 rg).settle rg

/-- Clear the fault records of a region's cores (spec/14_system_state.md R314). -/
def State.clearRecs (s : State) (r : Region) : State := r.d.coreIds.foldl (fun s id => s.modCore id (fun c => { c with frec := [], ovf := false })) s

/-- THAW: a held region whose causes are all resolved, and all of a kind that allows it, goes on with its bundle of stitch h (R46, R47), with the limits
written while it was held (R312). -/
def runThaw (rg : Nat) (s : State) : State :=
  let r := s.rgn rg
  if r.canThaw && r.d.state == 3 then
    (s.clearRecs r).setRgn rg { r with
      d := { r.d.inForce with state := 2 }, seg := { mask := r.seg.mask, relDue := r.seg.relDue }, work := { next := s.pcyc + 1 } }
  else s

/-- DEBUG_REQUEST: the segment root of a region that runs or is held registers a request as a DEBUG cause (R42, R43). -/
def runDebug (rg : Nat) (s : State) : State :=
  let r := s.rgn rg
  if r.d.state = 2 ∨ r.d.state = 3 then (s.addCause rg r.clk.sc cDEBUG).causesChanged rg else s

/-- ACKNOWLEDGE: resolve every recorded DEBUG, ARITH, GUARD, WATCH and BREAK cause of a held region (R312). DESIGN CHOICE (log entry 59): before
the hold, in STATE 2, the write is taken and resolves nothing. -/
def runAck (rg : Nat) (s : State) : State :=
  let r := s.rgn rg
  if r.d.state = 3 then
    (s.setRgn rg { r with seg := { r.seg with causes := r.seg.causes.map (fun c =>
      if [0x73, 0x30, 0x40, 0x41, 0x42].contains c.code then { c with resolved := true } else c) } }).causesChanged rg
  else s

/-! ## The drawstring and the watchdog -/

/-- What a release does to a core: its guards lose EN, its arrival is cleared, and it issues again when it waited (R34, R39, R82). -/
def Core.released (c : Core) (t : Nat) : Core :=
  { c with
    arr := none
    sp := { c.sp with guard := Vector.ofFn (fun i => c.sp.guard.get i &&& 0x7fffffffffffffff) }
    issue := match c.issue with | .waiting r => if r ≤ t then .issuing else .idle r | i => i }

/-- Has every core of a region halted in stitch `t`? -/
def State.allHalted (s : State) (r : Region) (t : Nat) : Bool := r.d.coreIds.all (fun id => (s.core id).haltedAt t)

/-- DRAWSTRING_RELEASE at its stitch (R39); none takes place once every core has halted (R254). -/
def runRelease (rg : Nat) (s : State) : State :=
  let r := s.rgn rg
  let t := r.clk.sc
  if r.seg.relDue = some t then
    if s.allHalted r t then s.setRgn rg { r with seg := { r.seg with relDue := none } }
    else match mget r.badP 0 with
    | some m => s.useOrigin rg t 0 m
    | none =>
      (r.d.coreIds.foldl (fun s id => s.modCore id (fun c => c.released t)) s).setRgn rg
        { r with seg := { r.seg with relDue := none }, clk := { r.clk with ssc := 0 }, hung := false }
  else s

/-- ISSUE as CSTATE gives it (spec/14_system_state.md R314). -/
def Issue.code : Issue → Nat | .issuing => 0 | .idle _ => 1 | .waiting _ => 2 | .halted _ => 3 | .noRegion => 7

/-- The issue state of a core in stitch `t`: one whose idle count has run out issues (R34). -/
def Core.issueIn (c : Core) (t : Nat) : Issue := match c.issue with | .idle r => if r ≤ t then .issuing else .idle r | i => i

/-- HANG: SSC has reached WDOG while a core has not halted (R57): a record at every core, with its issue state and, where it waits, the address of
its waiting instruction. -/
def runHang (rg : Nat) (s : State) : State :=
  let r := s.rgn rg
  if r.d.wdog ≤ r.clk.ssc ∧ !r.hung ∧ !s.allHalted r r.clk.sc then
    (r.d.coreIds.foldl (fun s id =>
      let c := s.core id
      s.raise rg id r.clk.sc { code := 0x60, baddr := match c.issue with | .waiting _ => c.cur | _ => 0, w5 := (c.issueIn r.clk.sc).code, w6 := r.clk.ssc }) s).modRgn rg
      (fun r => { r with hung := true })
  else s

/-! ## Same-stitch operations -/

/-- The region-relative indices of the cores that had not halted in stitch `t`. -/
def State.live (s : State) (r : Region) (t : Nat) : List Nat := (List.range r.d.ncore).filter (fun c => !(s.core (r.d.coreAt c)).haltedAt t)

/-- Did some core that had not halted in stitch `t` fail to issue the operation? -/
def State.unmatched (s : State) (r : Region) (k : SameCheck) : Bool := (s.live r k.at_).any (fun c => !k.cores.any (fun x => x.core == c))
/-- The issuing core of lowest index (R357). -/
def SameCheck.first (k : SameCheck) : SameIssue := k.cores.foldl (fun m x => if x.core < m.core then x else m) (k.cores.headD { core := 0, baddr := 0, entry := 0 })
/-- Drop the checks of a stitch. -/
def Region.dropSame (r : Region) (t : Nat) (dom : Bool) : Region := { r with same := r.same.filter (fun k => !(k.at_ == t && (decide (k.op ≠ .phint) == dom))) }

/-- PHINT_MISMATCH: the check, Dr later, of a phint that not every core issued in stitch `t` (R59, R357). -/
def runPhintCheck (rg t : Nat) (s : State) : State :=
  let r := s.rgn rg
  let s1 := s.modRgn rg (fun r => r.dropSame t false)
  match r.sameAt .phint t with
  | none => s
  | some k =>
    if s.unmatched r k then s1.raiseOrigin rg r.clk.sc { code := 0x14, dst := Op.dst (.sy .phint), baddr := k.first.baddr, w5 := t, w6 := k.cores.length }
    else s1

/-- CD_STITCH_MISMATCH: the check, Dr later, of a cdopen or cdclose that not every core issued in stitch `t` (R258, R261, R357). -/
def runDomainCheck (rg t : Nat) (s : State) : State :=
  let r := s.rgn rg
  let f := fun (s : State) (op : SameOp) (o : SyOp) =>
    match r.sameAt op t with
    | some k => if s.unmatched r k then s.raiseOrigin rg r.clk.sc { code := 0x10, dst := Op.dst (.sy o), baddr := k.first.baddr, w5 := 5, w7 := r.clk.cdlev } else s
    | none => s
  (f (f s .cdopen .cdopen) .cdclose .cdclose).modRgn rg (fun r => r.dropSame t true)

/-! ## Pre-emption -/

/-- PREEMPT_ARM: Dr stitches after its request, the region is armed on every core (R58). -/
def runArm (rg : Nat) (s : State) : State :=
  let r := s.rgn rg
  match r.pre.req with
  | some q => if q + r.d.dr ≤ r.clk.sc ∧ !r.pre.armed ∧ !r.pre.forced then s.setRgn rg { r with pre := { r.pre with armed := true } } else s
  | none => s

/-- PREEMPT_FORCE: no pre-emption point within PREEMPT_LIMIT stitches (R61). -/
def runForce (rg : Nat) (s : State) : State :=
  let r := s.rgn rg
  match r.pre.req with
  | some q =>
    if q + r.d.plimit ≤ r.clk.sc ∧ r.pre.point.isNone ∧ !r.pre.forced then
      (s.setRgn rg { r with pre := { r.pre with forced := true, armed := false } }).addCause rg r.clk.sc cPREEMPT
    else s
  | none => s

/-- PREEMPT_COMMAND: a request to a running or held region that has a save area and none pending (R58, R345). -/
def runPreempt (rg : Nat) (s : State) : State :=
  let r := s.rgn rg
  if (r.d.state = 2 ∨ r.d.state = 3) ∧ r.d.save ≠ 0 ∧ r.pre.req.isNone then s.setRgn rg { r with pre := { req := some r.clk.sc } } else s

/-- The entry by which a core is saved; none for the whole context (R61, R87): a forced save, or an entry that is not usable. DESIGN CHOICE (log entry
14): R60 does not say what is saved of a core that issued no phint at the pre-emption point, as one that had halted; the model saves it whole. -/
def State.saveEntry (s : State) (r : Region) (c : Nat) : Option Nat :=
  let k := s.core (r.d.coreAt c)
  match mget r.pre.named c with
  | some i => if r.pre.forced || k.liveBad i then none else some (k.liveEntry i)
  | none => none

/-- Keep of a memory only the bytes of ranges. -/
def keepRanges (m : Map α) (rs : List (Nat × Nat)) : Map α := m.filter (fun p => rs.any (fun r => decide (r.1 ≤ p.1) && decide (p.1 < r.1 + r.2)))

/-- A core as it is restored after a save (R60, R237, R322): what its entry does not name is zero, its cache is empty. -/
def Core.saved_ (c : Core) (e : Option Nat) (t : Nat) : Core :=
  let c1 := { c with tce := [], rr := 0, frec := [], ovf := false }
  match e with
  | none => c1.restoreTiles c.tiles (fun _ => true)
  | some e =>
    let c2 := { c1 with regs := c.regs.live e, scr := keepRanges c.scr (liveRanges e), scrP := keepRanges c.scrP (liveRanges e) }
    c2.restoreTiles c.tiles (c.tileKept e t)

/-! ### The save area (spec/15_region_scheduler.md R346, R347) -/

/-- A value as `n` bytes. -/
def vecBytes (n : Nat) (x : Vec) : List Byte := toBytes n x.toNat
/-- The destination of a landing record, in the form of R347. -/
def LandTo.dest : LandTo → Nat
  | .latch u hi _ _ => u.num * 128 + (if hi then 1 else 0)
  | .vback n _ _ _ => 0xfa0 + n.val
  | .special _ _ sy => (if sy then 9 else 11)
  | .tagSet _ _ | .tagInv _ => 10
  | .tile _ _ _ => 6
/-- Is a latch 2,048 bits wide? -/
def wideLatch (u : UnitId) (hi : Bool) : Bool := match u with | .ls | .vx | .mx => !hi | .vp => true | _ => false
/-- One record with its header: KIND, FLAGS, DEST, REMAIN, LEN, and the payload padded to 16 bytes. -/
def recBytes (kind flags dest remain : Nat) (p : List Byte) : List Byte :=
  toBytes 1 kind ++ toBytes 1 flags ++ toBytes 2 dest ++ toBytes 4 remain ++ toBytes 4 p.length ++ List.replicate 4 0 ++ p ++
    List.replicate ((16 - p.length % 16) % 16) 0
/-- A latch before the landings of a stitch, after the record that landed last, and that record's stitch: one more landing, in the order of stitches and
triggers. Each merges over the content before its own stitch (R195, R213). -/
def latchStep (a : Nat × Vec × Vec) (due : Nat) (val keep : Vec) : Nat × Vec × Vec :=
  let base := if a.1 = due then a.2.1 else a.2.2
  (due, base, (val &&& ~~~keep) ||| (base &&& keep))
/-- A latch just before stitch `d`, as the records in flight leave it (R195, R214). -/
def Core.latchBefore (c : Core) (u : UnitId) (hi : Bool) (d : Nat) : Vec :=
  (((c.lands.filter (fun x => decide (x.due < d))).foldl (fun l x => insertBy (fun y => y.due * 2 ^ 64 + y.trig) x l) []).foldl (fun a x => match x.tgt with
    | .latch u' hi' val keep => if u' = u ∧ hi' = hi then latchStep a x.due val keep else a
    | _ => a) (0, c.latch u hi, c.latch u hi)).2.2
/-- A landing record of KIND 0 or 3; a masked one holds its merged value (R214). -/
def Landing.bytes (c : Core) (x : Landing) (t : Nat) : List Byte :=
  let r := x.due - t
  match x.tgt with
  | .latch u hi v keep => recBytes 0 0 (x.tgt.dest) r (vecBytes (if wideLatch u hi then 256 else 8) ((v &&& ~~~keep) ||| (c.latchBefore u hi x.due &&& keep)))
  | .vback _ v _ _ => recBytes 0 1 (x.tgt.dest) r (vecBytes 256 v)
  | .special n v _ => recBytes 3 0 (x.tgt.dest) r (toBytes 8 n ++ toBytes 8 v.toNat)
  | .tagSet k e => recBytes 3 0 (x.tgt.dest) r (toBytes 8 k ++ toBytes 16 e.toNat)
  | .tagInv k => recBytes 3 0 (x.tgt.dest) r (toBytes 8 k)
  | .tile n sel w => recBytes 3 0 (x.tgt.dest) r (toBytes 8 (n + sel) ++ w.flatMap (fun q => toBytes 4 q.2.toNat))
/-- A bank-access record (KIND 1) of a unit: address, DST of the trigger with its MOD above it, stitches from slot to landing, cmp, data. -/
def accBytes (unit remain addr dst mod toLand cmp : Nat) (data : List Byte) : List Byte :=
  recBytes 1 0 unit remain (toBytes 4 addr ++ toBytes 2 (dst + 2 ^ 12 * mod) ++ toBytes 2 toLand ++ toBytes 8 cmp ++ data)
/-- The record of an access of ls. -/
def BankAcc.bytes (b : BankAcc) (t : Nat) : List Byte :=
  let p : Nat × Nat × Nat := match b.kind with
    | .load _ => (2, 0, 0) | .store d _ => (0, 0, d.toNat) | .atomRd _ v c => (3, c.toNat, v.toNat) | .atomWr v _ => (2, 0, (v.getD 0).toNat)
  accBytes (UnitId.num .ls) (b.due - t) b.addr b.dst b.mod.toNat p.1 p.2.1 (toBytes (if b.size = 256 then 256 else 8) p.2.2)
/-- The records of the rows that an unfinished tile load or store has yet to move (spec/09_matrix_ops.md R236). -/
def MxMove.bytes (m : MxMove) (t : Nat) : List (List Byte) :=
  (List.range (m.m * m.rows)).filterMap (fun q =>
    if t ≤ m.trig + 1 + q then
      some (accBytes (UnitId.num .mx) (m.trig + 1 + q - t) (m.rowAddr (q / m.m) + 256 * (q % m.m)) (Op.dst (.mx (if m.load then .load else .store))) 0 (if m.load then 2 else 0) 0
        (List.replicate 256 0))
    else none)
/-- A record of engine state (KIND 2): the device's revision, and a layout private to the device (log entry 14). -/
def engBytes (unit : Nat) (ws : List Nat) : List Byte := recBytes 2 0 unit 0 ((Config.revision :: ws.map (BitVec.ofNat 64)).flatMap (fun w => toBytes 8 w.toNat))
/-- The engine-state records of a core: im while it is occupied, mx and xf while they hold operations or groups. -/
def Core.engRecs (c : Core) (t : Nat) : List (List Byte) :=
  let im := c.unit .im
  (if im.busy t then [engBytes 2 [im.trig + im.occ - t]] else []) ++
  (if c.mx.muls.isEmpty && c.mx.opens.isEmpty && c.mx.grp.toList.all (fun g => decide (g ≤ t)) then [] else
    [engBytes 6 (c.mx.opens ++ c.mx.grp.toList ++ c.mx.muls.flatMap (fun m => [m.trig, m.ctl.toNat, m.a.toNat, m.b.toNat]))]) ++
  (if c.xf.xfers.isEmpty && c.xf.opens.isEmpty && c.xf.grp.toList.all (fun g => decide (g ≤ t)) then [] else
    [engBytes 7 (c.xf.opens ++ c.xf.grp.toList ++ c.xf.xfers.flatMap (fun x => [x.trig, x.kind.dst, x.ctl.toNat, x.scr, x.rem, x.len]))])
/-- Every in-flight record of a core. -/
def Core.records (c : Core) (t : Nat) : List (List Byte) :=
  c.lands.map (fun x => x.bytes c t) ++ c.banks.map (fun b => b.bytes t) ++ c.mx.moves.flatMap (fun m => m.bytes t) ++ c.engRecs t
/-- Issue state, idle count, bundle address, redirects, occupancies and drawstring state (offset 0x4200), as words of 8 bytes in that order: R346
names them and gives no layout (log entry 14). -/
def Core.issueBytes (c : Core) (t : Nat) : List Byte :=
  let idle := match c.issue with | .idle r | .waiting r => r - t | _ => 0
  let redirs := (List.range 3).flatMap (fun i => match c.redir[i]? with | some r => [r.due - t, r.target] | none => [0, 0])
  ([c.issue.code, idle, c.cur, c.pc, c.redir.length] ++ redirs ++ c.units.toList.map (fun (u : UnitSt) => u.trig + u.occ - t) ++ [if c.arr.isSome then 1 else 0]).flatMap (toBytes 8)

/-- The parts of a core block that a save writes (R346): offset and bytes. A register, tile or range that the entry does not name is not written. -/
def Core.saveBlock (c : Core) (r : Region) (id : Nat) (e : Option Nat) (t : Nat) : List (Nat × List Byte) :=
  let units : List UnitId := [.ia0, .ia1, .im, .ls, .vx, .vp, .mx, .xf, .br, .sy, .tg, .cr]
  let named := fun (f : Nat → Nat → Bool) n => match e with | some e => f e n | none => true
  let recs := c.records t
  units.flatMap (fun u => let x := c.unit u
    [(256 * (5 * u.num), vecBytes 256 x.o0), (256 * (5 * u.num + 1), vecBytes 256 x.o1), (256 * (5 * u.num + 2), vecBytes 256 x.o2),
     (256 * (5 * u.num + 3), vecBytes 256 x.r), (256 * (5 * u.num + 4), vecBytes 256 x.h)]) ++
  (List.range 64).map (fun n => (0x3c00 + 8 * n, toBytes 8 ((crRead r id c n).getD 0))) ++
  (List.range 32).map (fun n => (0x3e00 + 32 * n, toBytes 32 (c.sp.td.get (Fin.ofNat 32 n)).toNat)) ++
  [(0x4200, c.issueBytes t)] ++
  ((List.range 32).filter (named liveG)).map (fun n => (0x4300 + 8 * n, toBytes 8 (c.regs.g.get (Fin.ofNat 32 n)).toNat)) ++
  ((List.range 8).filter (named liveP)).map (fun n => (0x4400 + 8 * n, toBytes 8 (c.regs.p.get (Fin.ofNat 8 n)).toNat)) ++
  [(0x4440, toBytes 64 (e.getD (2 ^ 512 - 1)))] ++
  ((List.range 32).filter (named liveV)).map (fun n => (0x4500 + 256 * n, vecBytes 256 (c.regs.v.get (Fin.ofNat 32 n)))) ++
  (List.range 256).map (fun n => (0x6500 + 16 * n, toBytes 16 (mgetD c.tags n 0).toNat)) ++
  [(0x8000, toBytes 8 recs.length ++ recs.flatten)] ++
  ((List.range 16).filter (fun n => named (fun e n => c.tileKept e t n) n && acfgDirty (c.acfg n))).map (fun n =>
    (0x40000 + 16384 * n, c.tileBytes n)) ++
  (match e with
   | none => [(0x80000, Memory.readN c.scr 0 scrEnd)]
   | some e => ((liveRanges e).foldl (fun (acc : Nat × List (Nat × List Byte)) q =>
      (acc.1 + q.2, acc.2 ++ [(0x80000 + acc.1, Memory.readN c.scr q.1 q.2)])) (0, [])).2)

/-- Numbers of a save area as words of 8 bytes. -/
def saveWords (l : List Nat) : List Byte := l.flatMap (toBytes 8)
/-- A pending write of an engine, with its data; a token. -/
def PWrite.bytes (w : PWrite) (t : Nat) : List Byte :=
  saveWords [w.due - t, (w.window.map (fun c => c + 1)).getD 0, w.addr, w.fl.toNat, w.step, w.chunk.bytes.length] ++ w.chunk.bytes
def PToken.bytes (k : PToken) (t : Nat) : List Byte := saveWords [k.due - t, k.core, k.tok, k.fl.toNat]
/-- The state of a plan's engine (spec/11_puzil.md R276): FLAGS, the offset that it has reached, chunks on their way, writes and tokens. -/
def Rank.bytes (k : Rank) (ofs t : Nat) : List Byte :=
  saveWords [k.engine, k.fl.toNat, ofs, k.inbox.length, k.writes.length, k.tokens.length] ++ k.inbox.flatMap (fun w => w.bytes t) ++
    k.writes.flatMap (fun w => w.bytes t) ++ k.tokens.flatMap (fun w => w.bytes t)
/-- The near accesses of a core that wait at bridges: trigger, beat, stitches to the slot, address, and the bytes that a put carries there. -/
def Core.bridgeBytes (c : Core) (id t : Nat) : List Byte :=
  c.xf.xfers.flatMap (fun x => (List.range x.beats).flatMap (fun j =>
    if x.isNear && !x.gone.contains j && decide (t ≤ x.slot0 + j) then
      let b := ((mget x.data j).map Chunk.bytes).getD []
      saveWords [id, x.trig, j, x.slot0 + j - t, x.rem + x.beat * j, b.length] ++ b
    else []))
/-- The region part of a save area: the drawstring segment, the state of plans, the flits under way, and the accesses pending at bridges, in a layout
of the model's (R346; log entry 14). -/
def State.partBytes (s : State) (r : Region) : List Byte :=
  let t := r.clk.sc
  let opt := fun (x : Option Nat) => match x with | some d => d - t + 1 | none => 0
  saveWords [r.clk.sc, r.clk.ssc, r.clk.cdlev, opt r.seg.relDue] ++
    r.plans.flatMap (fun p => saveWords [p.handle, opt p.rel, p.fin] ++ p.ranks.flatMap (fun k => k.bytes (match p.rel with | some q => t - q | none => 0) t)) ++
    r.d.coreIds.flatMap (fun id => (s.core id).xf.xfers.flatMap (fun x => x.hops.flatMap (fun q => saveWords [id, x.trig, q.1, q.2] ++ ((mget x.data q.1).map Chunk.bytes).getD []))) ++
    r.d.coreIds.flatMap (fun id => (s.core id).bridgeBytes id t)

/-- PREEMPT_SAVE: once every other cause is resolved, the save engine writes the save area, and the cores are taken back (R346). A record that
forbids a thaw cancels the pre-emption (R345); a save area that the partition does not own ends the region (R347, R357 reason 6). -/
def runSave (rg : Nat) (s : State) : State :=
  let r := s.rgn rg
  if r.d.state ≠ 3 ∨ !r.pre.saving then s
  else if r.seg.causes.any (fun c => !c.mayThaw) then s.setRgn rg { r with pre := {} }
  else if !r.seg.causes.all (fun c => c.resolved || c.code == cPREEMPT) then s
  else if !s.ownsAll r.d.part (fpaDie r.d.save) (fpaOfs r.d.save) r.d.saveLen then s.unpick rg 6
  else
    let t := r.clk.sc
    let prots := s.protPages
    let s1 := (List.range r.d.ncore).foldl (fun s c =>
      let id := r.d.coreAt c
      ((s.core id).saveBlock r id (s.saveEntry r c) t).foldl (fun s q => s.saveBytes prots (r.d.blockAt c + q.1) q.2) s) s
    let s1 := s1.saveBytes prots (r.d.save + r.d.allCores * 2 ^ 21) (s.partBytes r)
    let keep : Saved :=
      { clk := r.clk, forced := r.pre.forced, named := r.pre.named
        cores := (List.range r.d.ncore).map (fun c => (r.d.coreAt c, (s.core (r.d.coreAt c)).saved_ (s.saveEntry r c) t)) }
    let s2 := r.d.coreIds.foldl (fun s id => s.modCore id Core.freed) s1
    let s3 := s2.setRgn rg { r with d := { r.d with state := 4 }, saved := some keep, pre := {} }
    let s4 := { s3 with sched := { s3.sched with slots := mmod s3.sched.slots r.pl.sid (fun x => { x with state := 4, since := s.pcyc }) } }
    s4.laterOnce .placement

/-- The first byte of a save area that cannot be read, with what it carries: a poisoned one, one of a lost H-die, one with a lost mark (R358, R371). -/
def State.saveLost (s : State) (d : Descr) : Option (Nat × Poison) :=
  if s.farP.isEmpty && s.hdies.carried.isEmpty && s.hdies.lost.isEmpty && s.hdies.rebuild.isEmpty && s.hdies.spares.isEmpty then none
  else
    let known := s.knownProt
    (List.range d.saveLen).findSome? (fun i =>
      let h := fpaDie d.save
      let off := fpaOfs d.save + i
      if (s.rawByte known h off).isSome then none else some (i, (mget s.farP (s.hKey h off)).getD ⟨12, hdieId (s.hPhys h)⟩))

/-- The records of a record area that starts at a far physical address, each as KIND and the place of its payload; the first argument is their number
(R347). -/
def State.savedRecs (s : State) : Nat → Nat → List (Nat × Nat)
  | 0, _ => []
  | n + 1, a => (s.fpaNum a 1, a + 16) :: s.savedRecs n (a + 16 + ceilDiv (s.fpaNum (a + 8) 4) 16 * 16)
/-- Do the engine-state records of a save area carry this device's revision (R347)? -/
def State.saveMine (s : State) (d : Descr) : Bool :=
  (List.range d.ncore).all (fun c =>
    let a := d.blockAt c + 0x8000
    (s.savedRecs (min (s.fpaNum a 8) 14336) (a + 8)).all (fun q => q.1 != 2 || s.fpaWord q.2 == Config.revision))

/-- A region that has been placed again and whose save area cannot be restored is unpicked with reason 6, which its origin core records (R357; R347). -/
def State.restoreFails (s : State) (rg : Nat) : State := (s.modRgn rg (fun r => { r with d := { r.d with state := 3 }, saved := none })).unpick rg 6

/-- RESTORE: a saved region is placed again; it goes on at its hold stitch (R348). A byte of the save area that cannot be read ends it (R358 class
12), and so does a record of another device revision (R347). The copies of tiles that it does not take up are zero (R237). Its ease is what the
repairs made meanwhile require, and one that needs more than 8 is placed again from its image (R53). -/
def runRestore (rg : Nat) (s : State) : State :=
  let r := s.rgn rg
  match r.saved with
  | none => s
  | some k =>
    if r.d.state ≠ 4 then s
    else
      match s.saveLost r.d with
      | some (o, m) =>
        ({ s with free := s.free + 1 }.raiseOrigin rg r.clk.sc
          { code := 0x50, cls := 12, w5 := r.d.save + o, w6 := (Config.syndrome s.free).toNat, w7 := m.unit }).restoreFails rg
      | none =>
        if !s.saveMine r.d then s.restoreFails rg
        else if 8 < s.loadK r then s.placeAgain rg
        else
          let s1 := k.cores.foldl (fun s q => s.setCore q.1 { q.2 with imem := s.textOf rg (r.d.relOf q.1) }) s
          let kept := fun c n => (k.cores[c]?).any (fun q => q.2.saved.any (fun p => p.1 / 4096 == n))
          (s1.zeroCopies r.d (fun c n => !kept c n)).setRgn rg { r with
            d := { r.d.inForce with state := 2, ease := s.easeAfter r }, saved := none, pre := {}, seg := { mask := r.seg.mask, relDue := r.seg.relDue }
            work := { next := s.pcyc + 1 }, pl := { r.pl with since := k.clk.sc } }

/-- What RESTORE reads of far memory: the region's save area and its image. -/
def State.restoreReads (s : State) (rg : Nat) : List (Nat × Nat) :=
  let r := s.rgn rg
  if r.saved.isSome ∧ r.d.state = 4 then [(r.d.save, r.d.saveLen), s.imageRun rg] else []

/-! ## Release and end -/

/-- The cycles by which RC lies at least after its sending (R342, R385). -/
def Descr.leadCycles (d : Descr) : Nat := if d.band = 3 then 2 ^ 20 else 2 ^ 16

/-- REGION_RELEASE: in cycle RC every core of a loaded region issues its first bundle (R33, R342). A message that comes after RC is reported, and a
later RC is sent: the least that the rules allow (log entry 56). The ease is set last here (R53). -/
def runRegionRelease (rg : Nat) (s : State) : State :=
  let r := s.rgn rg
  if r.d.state ≠ 1 ∨ r.pl.relCyc = 0 then s
  else if r.pl.relCyc < s.pcyc then
    let cyc := s.pcyc + r.d.leadCycles
    let s1 := s.setRgn rg { r with pl := { r.pl with relCyc := cyc } }
    (s1.send (.report 1 rg)).atCycle cyc (.regionRelease rg)
  else if s.pcyc < r.pl.relCyc then s.atCycle r.pl.relCyc (.regionRelease rg)
  else if 8 < s.loadK r then s.placeAgain rg
  else
    (r.d.coreIds.foldl (fun s id => s.modCore id (fun c => { c with issue := .issuing, frec := [], ovf := false })) s).setRgn rg
      { r with d := { r.d with state := 2, ease := s.easeAfter r }, clk := {}, work := { next := s.pcyc } }

/-- Is anything of a region still to come in stitch `t` or later (R36)? -/
def State.quiet (s : State) (r : Region) (t : Nat) : Bool :=
  r.d.coreIds.all (fun id => let c := s.core id
    c.isHalted && c.lands.isEmpty && c.banks.isEmpty && c.mx.muls.all (fun m => decide (m.finish ≤ t)) && c.mx.moves.all (fun m => decide (m.finish ≤ t)) &&
      c.xf.xfers.all (fun x => decide (x.lastAt ≤ t)) && decide (c.xf.last ≤ t)) &&
  r.plans.all (fun p => p.rel.isNone && p.ranks.all (fun k => k.writes.isEmpty && k.tokens.isEmpty)) && r.seg.causes.isEmpty &&
  r.doms.all (fun d => d.copies.all (fun b => b.done || b.fail))

/-- Close every open domain from the innermost outward, and apply the journal (R254, R261). -/
def State.closeAll (s : State) (rg t : Nat) : State :=
  let s1 := match (s.rgn rg).doms.head? with | some d => s.closeLast rg t d | none => s
  if (s1.rgn rg).closing.isSome then s1.applyJournal rg else s1

/-- REGION_END: every core has halted and nothing remains in flight; open domains close, and the region is ending (R36, R254, R351). -/
def runRegionEnd (rg : Nat) (s : State) : State :=
  let r := s.rgn rg
  if r.d.state = 2 ∧ s.quiet r r.clk.sc then
    let s1 := s.closeAll rg r.clk.sc
    if (s1.rgn rg).seg.causes.isEmpty then
      (s1.modRgn rg (fun r => { r with d := { r.d with state := 5 }, seg := { r.seg with relDue := none }, pre := {}, work := {} })).laterOnce (.scheduleEnd rg)
    else s1
  else s

/-- JOURNAL_APPLY: the journal that a close left is applied at its stitch (R362). -/
def runApply (rg : Nat) (s : State) : State :=
  let r := s.rgn rg
  if r.closing.isSome ∧ r.applyAt = r.clk.sc then s.applyJournal rg else s

end Sys2Proof.Machine
end

