-- ==== Sys2Proof/Machine/Translate.lean ====
section
/-! DEFINITION. The resolution of hold causes from outside the cores: translation misses and their records (spec/14_system_state.md R321 to R324), the
translation cache's invalidation, and the reply to a sysreq (R314; spec/10_transfer_sync_ops.md R266). -/
namespace Sys2Proof.Machine

/-! ## XLATE causes and their records (R315, R323) -/

/-- Is a record an XLATE record? -/
def recXlate (f : FRec) : Bool := f[0].toNat % 256 == cXLATE

/-- The place of the `n`-th record among the XLATE records of its core. -/
def xlateRank (l : List FRec) (n : Nat) : Nat := ((l.take n).filter recXlate).length
/-- The XLATE causes of a core, in the order in which they were recorded. -/
def Region.xlates (r : Region) (id : Nat) : List Cause := r.seg.causes.filter (fun c => c.code == cXLATE && c.core == id)

/-- Set RESOLVED in the `k`-th XLATE record of a core. -/
def setResolved : List FRec → Nat → List FRec
  | [], _ => []
  | f :: l, k => if recXlate f then (if k = 0 then (f.set 6 (f[6] ||| 1)) :: l else f :: setResolved l (k - 1)) else f :: setResolved l k

/-- Is an XLATE cause of a core resolved: no page of its transfer that missed at its stitch is still to be filled? -/
def Core.filled (c : Core) (x : Cause) : Bool := match c.xfer x.tag with | some f => f.missed.all (fun m => m.2 != x.cs) | none => true

/-- Mark the XLATE causes of a core that are resolved, in the region and in the core's records. -/
def State.markFilled (s : State) (rg id : Nat) : State :=
  let r := s.rgn rg
  let c := s.core id
  let done := (r.xlates id).map (fun x => x.resolved || c.filled x)
  let recs := (List.range done.length).foldl (fun l k => if done.getD k false then setResolved l k else l) c.frec
  (s.setCore id { c with frec := recs }).setRgn rg { r with seg := { r.seg with causes := r.seg.causes.map (fun x =>
    if x.code = cXLATE ∧ x.core = id then { x with resolved := x.resolved || c.filled x } else x) } }

/-- A fault that joins the record of a miss with the cause stitch of the miss (R323). -/
def State.raiseMiss (s : State) (rg id cs : Nat) (f : FaultInfo) : State :=
  let r := s.rgn rg
  let hs := if r.seg.held then r.seg.holdSc else r.holdFor cs
  let s1 := s.modCore id (fun c => c.addFRec (mkFRec s.maps rg id cs hs f))
  (s1.modRgn rg (fun r => { r with seg := { r.seg with
    causes := r.seg.causes ++ [{ code := f.code, cls := f.cls, cs := cs, core := id, tag := f.tag }]
    holdAt := if r.seg.held then none else some hs } })).causesChanged rg

/-- The transfers of a core that still miss the page of an address. -/
def Core.missing (c : Core) (va : Nat) : List Xfer := c.xf.xfers.filter (fun x => (mget x.missed (va / 2 ^ 16)).isSome)

/-- Does a frame lie in the page of an entry that holds an address? -/
def samePage (l : BitVec 64) (va frame : Nat) : Bool := frame * 2 ^ 16 / 2 ^ leafSize l == va / 2 ^ leafSize l
/-- Give a transfer the entry of a page for every frame of it that missed. -/
def Xfer.fill (x : Xfer) (l : BitVec 64) (va : Nat) : Xfer :=
  { x with leaves := (x.missed.filter (fun m => samePage l va m.1)).foldl (fun a m => mset a m.1 l) x.leaves,
           missed := x.missed.filter (fun m => !samePage l va m.1) }
/-- Mark the frames of a forbidden page: they stay missed, and no walk fills them any more. -/
def Xfer.deny (x : Xfer) (l : BitVec 64) (va : Nat) : Xfer :=
  { x with denied := x.denied ++ (x.missed.filter (fun m => samePage l va m.1)).map Prod.fst }
/-- The transfers of a core that a request for the page of an address still concerns. -/
def Core.asking (c : Core) (va : Nat) : List Xfer := (c.missing va).filter (fun x => !x.denied.contains (va / 2 ^ 16))
/-- May a transfer not use a page? -/
def Xfer.forbidden (x : Xfer) (l : BitVec 64) : Bool := x.farWrite && !leafW l

/-- The fill of a page that transfers of a core missed: the cache holds it, and their causes that are left without a miss are resolved. -/
def State.fillPage (s : State) (rg id va : Nat) (l : BitVec 64) (xs : List Xfer) : State :=
  let k := s.core id
  let k1 := if k.tceLook va = some l then k else k.tceFill va l
  ((s.setCore id (xs.foldl (fun k x => k.setXfer (x.fill l va)) k1)).markFilled rg id).causesChanged rg
/-- PROTECTION for a transfer that missed a page that it may not use, with the cause stitch of the miss; no retry is possible. -/
def State.denyPage (s : State) (rg id va : Nat) (l : BitVec 64) (y : Xfer) : State :=
  (s.modCore id (fun k => k.setXfer (y.deny l va))).raiseMiss rg id (mgetD y.missed (va / 2 ^ 16) y.trig)
    { code := 0x22, dst := y.kind.dst, baddr := y.baddr, w5 := va, w6 := 2, tag := y.trig }

/-- TRANSLATION_WALK: the unit of the partition's HOME H-die serves the request of a core for the page of an address (R321 to R323). A valid page that
the access may use is filled into the core's cache, and the causes that it leaves without a miss are resolved; a page that a write may not use adds
PROTECTION for that write, once; an invalid one is reported to the region manager. -/
def runWalk (rg c va : Nat) (s : State) : State :=
  let r := s.rgn rg
  let id := r.d.coreAt c
  let xs := (s.core id).asking va
  if xs.isEmpty then s
  else match s.walk r.d.part va with
    | none => s.send (.report 2 va)
    | some l =>
      let may := xs.filter (fun x => !x.forbidden l)
      (xs.filter (fun x => x.forbidden l)).foldl (fun t y => t.denyPage rg id va l y) (if may.isEmpty then s else s.fillPage rg id va l may)

/-- The table entries that the walk of a request reads: none for a request that asks for nothing. -/
def State.walkReads (s : State) (rg c va : Nat) : List (Nat × Nat) :=
  let r := s.rgn rg
  if ((s.core (r.d.coreAt c)).asking va).isEmpty then [] else s.walkReadsGo r.d.part va s.knownProt 4 (s.partRoot r.d.part)

/-- The unresolved XLATE cause that record `n` of a core shows. -/
def State.xlateCause (s : State) (rg id n : Nat) : Option Cause :=
  let c := s.core id
  match c.frec[n]? with
  | some f => if recXlate f then (((s.rgn rg).xlates id)[xlateRank c.frec n]?).filter (fun x => !x.resolved) else none
  | none => none

/-- XLATE_RETRY: a write of RETRY to an XLATE record of a core makes the unit walk the table again for the pages still missed, but for forbidden
ones (R323). -/
def runRetry (rg c n : Nat) (s : State) : State :=
  let id := (s.rgn rg).d.coreAt c
  match s.xlateCause rg id n with
  | none => s
  | some x =>
    match (s.core id).xfer x.tag with
    | some f => (f.missed.filter (fun m => m.2 == x.cs && !f.denied.contains m.1)).foldl (fun s m => s.laterOnce (.translationWalk rg c (m.1 * 2 ^ 16))) s
    | none => s

/-- XLATE_DECLINE: a write of DECLINE to an XLATE record adds TRANSLATION with the cause stitch of the miss (R323). -/
def runDecline (rg c n : Nat) (s : State) : State :=
  let r := s.rgn rg
  let id := r.d.coreAt c
  match s.xlateCause rg id n with
  | none => s
  | some x =>
    let f := (s.core id).frec.getD n (Vector.replicate 8 0)
    s.raiseMiss rg id x.cs
      { code := 0x23, dst := bitsOf f[3].toNat 28 17, baddr := bitsOf f[3].toNat 16 0, w5 := f[5].toNat, w6 := r.d.part }

/-! ## Packets of the tack plane (R309) -/

/-- A header: destination column, row and port; source as SRC holds it; virtual network, flits, type, tag and status. -/
def packHead (dcol drow dport src : Nat) (reply : Bool) (flits type tag status : Nat) : W64 :=
  BitVec.ofNat 64 (dcol * 2 ^ 60 + drow * 2 ^ 56 + dport * 2 ^ 52 + src * 2 ^ 40 + (if reply then 2 ^ 39 else 0) + (flits - 1) * 2 ^ 35 + type * 2 ^ 32 +
    tag % 256 * 2 ^ 24 + status * 2 ^ 16)
/-- SRC of a place. -/
def placeOf (col row port : Nat) : Nat := col * 2 ^ 8 + row * 2 ^ 4 + port
/-- The reply to a packet, with data: it goes to the source, from the place given (R309). -/
def replyTo (h : W64) (src status : Nat) (data : List W64) : List W64 :=
  packHead (bitsOf h.toNat 51 48) (bitsOf h.toNat 47 44) (bitsOf h.toNat 43 40) src true (1 + data.length) (if bitsOf h.toNat 34 32 = 0 then 2 else 3)
    (bitsOf h.toNat 31 24) status :: data

/-- The flits that a router holds of a virtual network from a port. -/
def TackRouter.held (t : TackRouter) (vn : Bool) (port : Nat) : Nat := t.bufs.foldl (fun n b => if b.1 == vn && b.2.1 == port then n + b.2.2.length else n) 0

/-- Does an input of a router take a packet: it has not raised *stop*, and its 16 flits hold the packet (R311)? DEDUCED (log entry 53): a packet moves
whole, so the sender begins one only where it fits. -/
def TackRouter.takes (t : TackRouter) (vn : Bool) (port n : Nat) : Bool := decide (t.held vn port < 12) && decide (t.held vn port + n ≤ 16)

/-- Put a packet into a router, as coming in by a port (0 to 3 from the mesh, 4 + p from local port p), to be forwarded. -/
def State.tackPut (s : State) (rt : Nat) (vn : Bool) (port : Nat) (p : List W64) : State :=
  let t := mgetD s.tack rt {}
  ({ s with tack := mset s.tack rt { t with bufs := t.bufs ++ [(vn, port, p)] } }).laterOnce (.tackPacket rt vn)

/-! ## TCINV (R324) -/

/-- The logical core that sits on a physical core, as PHYS of R315 packs it. -/
def State.onPhys (s : State) (pk : Nat) : Option Nat := (List.range 6144).find? (fun c => s.maps.phys c == pk)

/-- Does a core still have a far access that uses one of these page entries? -/
def Core.usesLeaf (c : Core) (sc : Nat) (ls : List (BitVec 64)) : Bool :=
  c.xf.xfers.any (fun x => x.isFar && x.leaves.any (fun l => ls.contains l.2) &&
    (List.range x.beats).any (fun j => !x.gone.contains j &&
      (if x.farRead then decide (sc ≤ x.slot0 + j) || ((mget x.data j).isNone && decide (sc ≤ x.land0 + j)) else decide (sc ≤ x.effAt j))))
/-- Does the journal of a region hold writes of a core in one of these pages that have still to reach far memory (spec/10_transfer_sync_ops.md R260)? -/
def Region.holdsLeaf (r : Region) (rel : Nat) (ls : List (BitVec 64)) : Bool :=
  (r.journal ++ r.apply).any (fun e => e.core == rel && e.beats.any (fun b => b.2.2.2.any (fun q => ls.contains q.leaf)))

/-- The region that holds a core. -/
def State.regionOf (s : State) (id : Nat) : Option Nat := (s.regions.find? (fun r => r.2.d.state != 0 && r.2.d.state != 4 && r.2.d.holds id)).map Prod.fst

/-- Remove the cache entries that a test names; the reply waits for the accesses that use them (R324). -/
def tcRemove (id : Nat) (hit : BitVec 128 → Bool) (s : State) : State :=
  let c := s.core id
  let out := c.tce.filter (fun p => tceValid p.2 && hit p.2)
  let rg := s.regionOf id
  { s.setCore id { c with tce := c.tce.filter (fun p => !(tceValid p.2 && hit p.2)) } with
    tcWait := s.tcWait ++ [{ rg := rg, rel := rg.elim 0 (fun n => (s.rgn n).d.relOf id), leaves := out.map (fun p => tceLeaf p.2) }] }

/-- Does an access that used a removed entry still wait for its last read or effect? It keeps its address across holds, pre-emption and restore
(R322). -/
def State.tcBusy (s : State) (w : TcWait) : Bool :=
  match w.rg with
  | none => false
  | some n =>
    let r := s.rgn n
    (1 < r.d.state && r.d.state < 5 && r.holdsLeaf w.rel w.leaves) || match r.saved with
    | some k => r.d.state == 4 && (match k.cores[w.rel]? with | some c => c.2.usesLeaf k.clk.sc w.leaves | none => false)
    | none => (r.d.state == 2 || r.d.state == 3) && (s.core (r.d.coreAt w.rel)).usesLeaf r.clk.sc w.leaves

/-- The reply to an invalidation: a packet where its write came as one (R309). -/
def State.tcAnswer (s : State) (w : TcWait) : State :=
  match w.reply with
  | none => s.send (.reply 0 [])
  | some (rt, h) => s.tackPut rt true (4 + bitsOf h.toNat 55 52) (replyTo h (placeOf (rt % 15) (rt / 15) (bitsOf h.toNat 55 52)) 0 [])
/-- Can the reply to an invalidation be sent: its accesses have all been made or discarded (R324), and the input by which a packet goes in has room
for it (R311)? -/
def State.tcReady (s : State) (w : TcWait) : Bool :=
  !s.tcBusy w && (match w.reply with | none => true | some (rt, h) => (mgetD s.tack rt {}).takes true (4 + bitsOf h.toNat 55 52) 1)
/-- Send the replies of the invalidations that can be sent; the others wait for a later cycle. -/
def State.tcReplies (s : State) : State :=
  if s.tcWait.any s.tcReady then
    s.tcWait.foldl (fun t w => if t.tcReady w then t.tcAnswer w else { t with tcWait := t.tcWait ++ [w] }) { s with tcWait := [] }
  else s

/-- A write of TCINV for a core: every entry, or those whose page holds VPN times 2^16. -/
def tcInv (pk : Nat) (vpn : Option Nat) (s : State) : State :=
  match s.onPhys pk with
  | some id => tcRemove id (fun e => match vpn with | none => true | some v => tceMatch e (v % 2 ^ 36 * 2 ^ 16)) s
  | none => s
/-- TCINV_ALL. -/
def runTcAll (pk : Nat) (s : State) : State := if (s.onPhys pk).isSome then (tcInv pk none s).tcReplies else s
/-- TCINV_VPN: the entries whose page holds VPN times 2^16. -/
def runTcVpn (pk vpn : Nat) (s : State) : State := if (s.onPhys pk).isSome then (tcInv pk (some vpn) s).tcReplies else s

/-! ## SYSREPLY (R314; R266) -/

/-- Does a core hold a SYSREQ record? -/
def Core.sysRec (c : Core) : Bool := c.frec.any (fun f => f[0].toNat % 256 == 0x43)
/-- The unresolved SYSREQ cause of a core. -/
def Region.sysreq (r : Region) (id : Nat) : Option Cause := r.seg.causes.find? (fun c => c.code == 0x43 && c.core == id && !c.resolved)

/-- SYSREPLY_WRITE: resolve the SYSREQ cause of a core; the reply lands in sy.r at the hold stitch (R266). It is refused while the core holds no
unresolved SYSREQ record, also where the record was lost (R314). DESIGN CHOICE (log entry 59): the one write
resolves every unresolved SYSREQ cause of the core. -/
def runSysreply (pk : Nat) (val : BitVec 64) (s : State) : State :=
  match s.onPhys pk with
  | none => s
  | some id => match s.regionOf id with
    | none => s
    | some rg =>
      let r := s.rgn rg
      match (r.sysreq id).filter (fun _ => (s.core id).sysRec) with
      | none => s
      | some x =>
        let h := if r.seg.held then r.seg.holdSc else r.holdFor x.cs
        let s1 := s.modCore id (fun c => c.land { due := h, trig := x.cs, tgt := .latch .sy false (val.setWidth 2048) 0 })
        (s1.modRgn rg (fun r => { r with seg := { r.seg with causes := r.seg.causes.map (fun c =>
          if c.code = 0x43 ∧ c.core = id then { c with resolved := true } else c) } })).causesChanged rg

end Sys2Proof.Machine
end

