-- ==== Sys2Proof/Machine/CoreEvents.lean ====
section
/-! DEFINITION. Meanings: Events of a core and of its memory accesses (spec/02_stitch_time.md R34; spec/03_core.md R89; spec/06_encoding.md R144; spec/05_memory.md R118, R124, R126). Each acts in its region and names a core by its region-relative index and a transfer by its trigger stitch. -/
namespace Sys2Proof.Machine

/-- BUNDLE_ISSUE (R144): In a stitch in which it issues, a core decodes the bundle at its next address and issues all of its moves together, after the checks of R64. -/
def execBundleIssue (rg : Nat) (c : Nat) (s : State) : Out := .next (runIssue ((s.rgn rg).d.coreAt c) (s.onRg rg))

/-- IDLE_END (R34): The idle count of a core runs out, and the core issues again. -/
def execIdleEnd (rg : Nat) (c : Nat) (s : State) : Out := .next (runIdleEnd ((s.rgn rg).d.coreAt c) (s.onRg rg))

/-- LANDING (R89): An in-flight landing record reaches zero stitches remaining, and its value lands in its latch, register or write-back destination. -/
def execLanding (rg : Nat) (c : Nat) (s : State) : Out := .next (runLanding ((s.rgn rg).d.coreAt c) (s.onRg rg))

/-- BANK_SLOT (R118): A bank-access record reaches its slot and reads or writes its scratchpad bank; a load or atomic then becomes a landing record. -/
def execBankSlot (rg : Nat) (c : Nat) (b : Nat) (s : State) : Out := .next (runBankSlot ((s.rgn rg).d.coreAt c) b (s.onRg rg))

/-- BRANCH_REDIRECT (R179): A taken branch's redirect falls due, and the next bundle issues from its target. -/
def execBranchRedirect (rg : Nat) (c : Nat) (s : State) : Out := .next (runRedirect ((s.rgn rg).d.coreAt c) (s.onRg rg))

/-- ROUTER_FLIT (R303): A data-plane flit reaches a router on its route and is forwarded with the entry's padding. -/
def execRouterFlit (rg : Nat) (c : Nat) (x : Nat) (j : Nat) (s : State) : Out := .next (runFlit ((s.rgn rg).d.coreAt c) x j (s.onRg rg))

/-- BEAT_LANDING (R241): A transfer beat lands in the destination scratchpad at its landing stitch. -/
def execBeatLanding (rg : Nat) (c : Nat) (b : Nat) (s : State) : Out := .next (runBeatLanding ((s.rgn rg).d.coreAt c) b (s.onRg rg))

/-- NEAR_BANK_ACCESS (R124): A near get, put, atomic or window access takes its near bank slot at the bridge. -/
def execNearBankAccess (rg : Nat) (nb : Nat) (s : State) : Out := .next (runNear nb (s.onRg rg))

/-- FAR_PROBE (R126): At a beat's probe stitch the H-die checks the stripes that the beat reads or touches. -/
def execFarProbe (rg : Nat) (c : Nat) (x : Nat) (j : Nat) (s : State) : Out := .next (runFarProbe ((s.rgn rg).d.coreAt c) x j (s.onRg rg))

/-- REBUILD_DECISION (R401): By p + 120 the H-dies decide whether a read or protected write can proceed, or they raise REBUILD or DATA_UNCORRECTABLE. -/
def execRebuildDecision (rg : Nat) (c : Nat) (x : Nat) (j : Nat) (s : State) : Out := .next (runDecision ((s.rgn rg).d.coreAt c) x j (s.onRg rg))

/-- FAR_READ (R126): The H-die reads a far beat's bytes at its read stitch, by degraded read where stripes are lost. -/
def execFarRead (rg : Nat) (c : Nat) (x : Nat) (j : Nat) (s : State) : Out := .next (runFarRead ((s.rgn rg).d.coreAt c) x j (s.onRg rg))

/-- FAR_WRITE_EFFECT (R126): A far put or scatter beat takes effect at its H-dies, or is kept as a held write while journalled. -/
def execFarWriteEffect (rg : Nat) (c : Nat) (x : Nat) (j : Nat) (s : State) : Out := .next (runFarEffect ((s.rgn rg).d.coreAt c) x j (s.onRg rg))

end Sys2Proof.Machine
end

