-- ==== Sys2Proof/Machine/CrMoves.lean ====
section
/-! DEFINITION. Meanings: triggers of cr (spec/07_scalar_ops.md R183). Each is the shared effect of its move (Moves.lean). -/
namespace Sys2Proof.Machine

/-- CR_RD (R183): Read a special register into cr.r. -/
def execCrRd (src : Src) (e : Bool) (s : State) : Out := .next (runMove (.transport src (.trig (.cr .rd)) false 0 false 0 e) s)

/-- CR_WR (R183): Write a special register, in effect from t+1. -/
def execCrWr (src : Src) (e : Bool) (s : State) : Out := .next (runMove (.transport src (.trig (.cr .wr)) false 0 false 0 e) s)

/-- CR_RD_SHORT (R183): Short form of cr.rd. -/
def execCrRdShort (src : ShortSrc) (e : Bool) (s : State) : Out := .next (runMove (.short src (.trig (.cr .rd)) e) s)

/-- CR_WR_SHORT (R183): Short form of cr.wr. -/
def execCrWrShort (src : ShortSrc) (e : Bool) (s : State) : Out := .next (runMove (.short src (.trig (.cr .wr)) e) s)

end Sys2Proof.Machine
end

