-- ==== Sys2Proof/Machine/HoldEvents.lean ====
section
/-! DEFINITION. Meanings: Events of a region as a whole (spec/02_stitch_time.md R36 to R61; spec/14_system_state.md R312; spec/15_region_scheduler.md R342 to R348; spec/16_faults_recovery.md R362, R364). -/
namespace Sys2Proof.Machine

/-- DRAWSTRING_RELEASE (R39): Dr stitches after the last member arrival, the drawstring releases: SSC is zeroed, pending arrivals are cleared, waiting cores issue, and guards lose EN. -/
def execDrawstringRelease (rg : Nat) (s : State) : Out := .next (runRelease rg (s.onRg rg))

/-- HOLD (R45): At h = c + Dh the region freezes with all in-flight state intact. -/
def execHold (rg : Nat) (s : State) : Out := .next (runHold rg (s.onRg rg))

/-- THAW (R46): A write of CMD bit 0 thaws a held region whose causes are all resolved, and the region issues its bundle of stitch h. -/
def execThaw (rg : Nat) (s : State) : Out := .next (runThaw rg (s.onRg rg))

/-- DEBUG_REQUEST (R42): A write of CMD bit 1 sends a debug request, which the segment root registers as a DEBUG cause. -/
def execDebugRequest (rg : Nat) (s : State) : Out := .next (runDebug rg (s.onRg rg))

/-- ACKNOWLEDGE (R312): A write of CMD bit 2 resolves every recorded DEBUG, ARITH, GUARD, WATCH and BREAK cause. -/
def execAcknowledge (rg : Nat) (s : State) : Out := .next (runAck rg (s.onRg rg))

/-- PREEMPT_ARM (R58): Dr stitches after a pre-emption request registers, the region becomes armed on every core. -/
def execPreemptArm (rg : Nat) (s : State) : Out := .next (runArm rg (s.onRg rg))

/-- PREEMPT_FORCE (R61): The region reaches q + PREEMPT_LIMIT with no pre-emption point, so a PREEMPT cause is forced with a whole-context save. -/
def execPreemptForce (rg : Nat) (s : State) : Out := .next (runForce rg (s.onRg rg))

/-- PHINT_MISMATCH (R59): At p + Dr the segment root finds that a phint was not issued by every non-halted core in stitch p. -/
def execPhintMismatch (rg : Nat) (t : Nat) (s : State) : Out := .next (runPhintCheck rg t (s.onRg rg))

/-- CD_STITCH_MISMATCH (R258): At t + Dr the segment root finds that a cdopen or cdclose was not issued by every non-halted core in one stitch, and raises SLIP. -/
def execCdStitchMismatch (rg : Nat) (t : Nat) (s : State) : Out := .next (runDomainCheck rg t (s.onRg rg))

/-- HANG (R57): SSC reaches WDOG while some core of the region has not halted. -/
def execHang (rg : Nat) (s : State) : Out := .next (runHang rg (s.onRg rg))

/-- REGION_RELEASE (R342): At cycle RC every core of the region issues its first bundle and STATE becomes 2; a segment root that received the message late reports it instead. -/
def execRegionRelease (rg : Nat) (s : State) : Out := .next (runRegionRelease rg (s.onRg rg))

/-- REGION_END (R36): Every core has halted and no in-flight record, transfer or plan step of the region remains, so the region ends and its open domains close. -/
def execRegionEnd (rg : Nat) (s : State) : Out := .next (runRegionEnd rg (s.onRg rg))

/-- PREEMPT_SAVE (R346): Once every other cause of a pre-empted region is resolved, the save engine writes the region's context to its save area. -/
def execPreemptSave (rg : Nat) (s : State) : Out := .next (runSave rg (s.onRg rg))

/-- RESTORE (R348): A Saved schedule is placed again: its routes, image and saved state are written, and the region thaws at h. -/
def execRestore (rg : Nat) (s : State) : Out := .next (runRestore rg ((s.healed (s.restoreReads rg)).onRg rg))

/-- ROLLBACK (R364): A held region is restored to its rollback target domain and restarted at that domain's open stitch. -/
def execRollback (rg : Nat) (s : State) : Out := .next (((s.healed (s.rollReads rg)).onRg rg).rollback rg)

/-- JOURNAL_APPLY (R362): After a close brings OPEN to 0, the bridges and H-dies apply the journal to far memory, complete by t + 640. -/
def execJournalApply (rg : Nat) (s : State) : Out := .next (runApply rg (s.onRg rg))

end Sys2Proof.Machine
end

