-- ==== Sys2Proof/Machine/IaMoves.lean ====
section
/-! DEFINITION. Meanings: triggers of ia0 and ia1 (spec/07_scalar_ops.md R174, R175). Each is the shared effect of its move (Moves.lean). -/
namespace Sys2Proof.Machine

/-- IA_ADD (R174): Integer add a + b. -/
def execIaAdd (u : IaUnit) (src : Src) (e : Bool) (s : State) : Out := .next (runMove (.transport src (.trig (.ia u .add)) false 0 false 0 e) s)

/-- IA_SUB (R174): Integer subtract a − b. -/
def execIaSub (u : IaUnit) (src : Src) (e : Bool) (s : State) : Out := .next (runMove (.transport src (.trig (.ia u .sub)) false 0 false 0 e) s)

/-- IA_AND (R174): Bitwise AND. -/
def execIaAnd (u : IaUnit) (src : Src) (e : Bool) (s : State) : Out := .next (runMove (.transport src (.trig (.ia u .and)) false 0 false 0 e) s)

/-- IA_OR (R174): Bitwise OR. -/
def execIaOr (u : IaUnit) (src : Src) (e : Bool) (s : State) : Out := .next (runMove (.transport src (.trig (.ia u .or)) false 0 false 0 e) s)

/-- IA_XOR (R174): Bitwise XOR. -/
def execIaXor (u : IaUnit) (src : Src) (e : Bool) (s : State) : Out := .next (runMove (.transport src (.trig (.ia u .xor)) false 0 false 0 e) s)

/-- IA_SHL (R174): Shift left. -/
def execIaShl (u : IaUnit) (src : Src) (e : Bool) (s : State) : Out := .next (runMove (.transport src (.trig (.ia u .shl)) false 0 false 0 e) s)

/-- IA_SHR (R174): Logical shift right. -/
def execIaShr (u : IaUnit) (src : Src) (e : Bool) (s : State) : Out := .next (runMove (.transport src (.trig (.ia u .shr)) false 0 false 0 e) s)

/-- IA_SRA (R174): Arithmetic shift right. -/
def execIaSra (u : IaUnit) (src : Src) (e : Bool) (s : State) : Out := .next (runMove (.transport src (.trig (.ia u .sra)) false 0 false 0 e) s)

/-- IA_SEL (R174): Select a if b is non-zero, else c. -/
def execIaSel (u : IaUnit) (src : Src) (e : Bool) (s : State) : Out := .next (runMove (.transport src (.trig (.ia u .sel)) false 0 false 0 e) s)

/-- IA_CMPEQ (R174): Compare equal. -/
def execIaCmpeq (u : IaUnit) (src : Src) (e : Bool) (s : State) : Out := .next (runMove (.transport src (.trig (.ia u .cmpeq)) false 0 false 0 e) s)

/-- IA_CMPLT (R174): Signed compare less than. -/
def execIaCmplt (u : IaUnit) (src : Src) (e : Bool) (s : State) : Out := .next (runMove (.transport src (.trig (.ia u .cmplt)) false 0 false 0 e) s)

/-- IA_CMPLTU (R174): Unsigned compare less than. -/
def execIaCmpltu (u : IaUnit) (src : Src) (e : Bool) (s : State) : Out := .next (runMove (.transport src (.trig (.ia u .cmpltu)) false 0 false 0 e) s)

/-- IA_MIN (R174): Signed minimum. -/
def execIaMin (u : IaUnit) (src : Src) (e : Bool) (s : State) : Out := .next (runMove (.transport src (.trig (.ia u .min)) false 0 false 0 e) s)

/-- IA_MAX (R174): Signed maximum. -/
def execIaMax (u : IaUnit) (src : Src) (e : Bool) (s : State) : Out := .next (runMove (.transport src (.trig (.ia u .max)) false 0 false 0 e) s)

/-- IA_ANDN (R174): a AND NOT b. -/
def execIaAndn (u : IaUnit) (src : Src) (e : Bool) (s : State) : Out := .next (runMove (.transport src (.trig (.ia u .andn)) false 0 false 0 e) s)

/-- IA_ROTL (R174): Rotate left. -/
def execIaRotl (u : IaUnit) (src : Src) (e : Bool) (s : State) : Out := .next (runMove (.transport src (.trig (.ia u .rotl)) false 0 false 0 e) s)

/-- IA_MINU (R174): Unsigned minimum. -/
def execIaMinu (u : IaUnit) (src : Src) (e : Bool) (s : State) : Out := .next (runMove (.transport src (.trig (.ia u .minu)) false 0 false 0 e) s)

/-- IA_MAXU (R174): Unsigned maximum. -/
def execIaMaxu (u : IaUnit) (src : Src) (e : Bool) (s : State) : Out := .next (runMove (.transport src (.trig (.ia u .maxu)) false 0 false 0 e) s)

/-- IA_CMPNE (R174): Compare not equal. -/
def execIaCmpne (u : IaUnit) (src : Src) (e : Bool) (s : State) : Out := .next (runMove (.transport src (.trig (.ia u .cmpne)) false 0 false 0 e) s)

/-- IA_CMPGE (R174): Signed compare greater or equal. -/
def execIaCmpge (u : IaUnit) (src : Src) (e : Bool) (s : State) : Out := .next (runMove (.transport src (.trig (.ia u .cmpge)) false 0 false 0 e) s)

/-- IA_CMPGEU (R174): Unsigned compare greater or equal. -/
def execIaCmpgeu (u : IaUnit) (src : Src) (e : Bool) (s : State) : Out := .next (runMove (.transport src (.trig (.ia u .cmpgeu)) false 0 false 0 e) s)

/-- IA_BFX (R175): Bit-field extract. -/
def execIaBfx (u : IaUnit) (src : Src) (e : Bool) (s : State) : Out := .next (runMove (.transport src (.trig (.ia u .bfx)) false 0 false 0 e) s)

/-- IA_BFI (R175): Bit-field insert. -/
def execIaBfi (u : IaUnit) (src : Src) (e : Bool) (s : State) : Out := .next (runMove (.transport src (.trig (.ia u .bfi)) false 0 false 0 e) s)

/-- IA_CLZ (R174): Count leading zeros of b. -/
def execIaClz (u : IaUnit) (src : Src) (e : Bool) (s : State) : Out := .next (runMove (.transport src (.trig (.ia u .clz)) false 0 false 0 e) s)

/-- IA_CTZ (R174): Count trailing zeros of b. -/
def execIaCtz (u : IaUnit) (src : Src) (e : Bool) (s : State) : Out := .next (runMove (.transport src (.trig (.ia u .ctz)) false 0 false 0 e) s)

/-- IA_POPC (R174): Population count of b. -/
def execIaPopc (u : IaUnit) (src : Src) (e : Bool) (s : State) : Out := .next (runMove (.transport src (.trig (.ia u .popc)) false 0 false 0 e) s)

/-- IA_PSET (R175): Build a pointer value from ADDR, STRIDE and WRAP. -/
def execIaPset (u : IaUnit) (src : Src) (e : Bool) (s : State) : Out := .next (runMove (.transport src (.trig (.ia u .pset)) false 0 false 0 e) s)

/-- IA0_ADD_SHORT (R174): Short form of ia0.add. -/
def execIa0AddShort (src : ShortSrc) (e : Bool) (s : State) : Out := .next (runMove (.short src (.trig (.ia .ia0 .add)) e) s)

/-- IA0_SUB_SHORT (R174): Short form of ia0.sub. -/
def execIa0SubShort (src : ShortSrc) (e : Bool) (s : State) : Out := .next (runMove (.short src (.trig (.ia .ia0 .sub)) e) s)

/-- IA0_AND_SHORT (R174): Short form of ia0.and. -/
def execIa0AndShort (src : ShortSrc) (e : Bool) (s : State) : Out := .next (runMove (.short src (.trig (.ia .ia0 .and)) e) s)

/-- IA0_OR_SHORT (R174): Short form of ia0.or. -/
def execIa0OrShort (src : ShortSrc) (e : Bool) (s : State) : Out := .next (runMove (.short src (.trig (.ia .ia0 .or)) e) s)

/-- IA0_XOR_SHORT (R174): Short form of ia0.xor. -/
def execIa0XorShort (src : ShortSrc) (e : Bool) (s : State) : Out := .next (runMove (.short src (.trig (.ia .ia0 .xor)) e) s)

/-- IA0_SHL_SHORT (R174): Short form of ia0.shl. -/
def execIa0ShlShort (src : ShortSrc) (e : Bool) (s : State) : Out := .next (runMove (.short src (.trig (.ia .ia0 .shl)) e) s)

/-- IA0_SHR_SHORT (R174): Short form of ia0.shr. -/
def execIa0ShrShort (src : ShortSrc) (e : Bool) (s : State) : Out := .next (runMove (.short src (.trig (.ia .ia0 .shr)) e) s)

/-- IA0_SRA_SHORT (R174): Short form of ia0.sra. -/
def execIa0SraShort (src : ShortSrc) (e : Bool) (s : State) : Out := .next (runMove (.short src (.trig (.ia .ia0 .sra)) e) s)

/-- IA0_SEL_SHORT (R174): Short form of ia0.sel. -/
def execIa0SelShort (src : ShortSrc) (e : Bool) (s : State) : Out := .next (runMove (.short src (.trig (.ia .ia0 .sel)) e) s)

/-- IA0_CMPEQ_SHORT (R174): Short form of ia0.cmpeq. -/
def execIa0CmpeqShort (src : ShortSrc) (e : Bool) (s : State) : Out := .next (runMove (.short src (.trig (.ia .ia0 .cmpeq)) e) s)

/-- IA0_CMPLT_SHORT (R174): Short form of ia0.cmplt. -/
def execIa0CmpltShort (src : ShortSrc) (e : Bool) (s : State) : Out := .next (runMove (.short src (.trig (.ia .ia0 .cmplt)) e) s)

/-- IA0_CMPLTU_SHORT (R174): Short form of ia0.cmpltu. -/
def execIa0CmpltuShort (src : ShortSrc) (e : Bool) (s : State) : Out := .next (runMove (.short src (.trig (.ia .ia0 .cmpltu)) e) s)

/-- IA0_MIN_SHORT (R174): Short form of ia0.min. -/
def execIa0MinShort (src : ShortSrc) (e : Bool) (s : State) : Out := .next (runMove (.short src (.trig (.ia .ia0 .min)) e) s)

/-- IA0_MAX_SHORT (R174): Short form of ia0.max. -/
def execIa0MaxShort (src : ShortSrc) (e : Bool) (s : State) : Out := .next (runMove (.short src (.trig (.ia .ia0 .max)) e) s)

/-- IA1_ADD_SHORT (R174): Short form of ia1.add. -/
def execIa1AddShort (src : ShortSrc) (e : Bool) (s : State) : Out := .next (runMove (.short src (.trig (.ia .ia1 .add)) e) s)

/-- IA1_SUB_SHORT (R174): Short form of ia1.sub. -/
def execIa1SubShort (src : ShortSrc) (e : Bool) (s : State) : Out := .next (runMove (.short src (.trig (.ia .ia1 .sub)) e) s)

/-- IA1_AND_SHORT (R174): Short form of ia1.and. -/
def execIa1AndShort (src : ShortSrc) (e : Bool) (s : State) : Out := .next (runMove (.short src (.trig (.ia .ia1 .and)) e) s)

/-- IA1_OR_SHORT (R174): Short form of ia1.or. -/
def execIa1OrShort (src : ShortSrc) (e : Bool) (s : State) : Out := .next (runMove (.short src (.trig (.ia .ia1 .or)) e) s)

/-- IA1_XOR_SHORT (R174): Short form of ia1.xor. -/
def execIa1XorShort (src : ShortSrc) (e : Bool) (s : State) : Out := .next (runMove (.short src (.trig (.ia .ia1 .xor)) e) s)

/-- IA1_SHL_SHORT (R174): Short form of ia1.shl. -/
def execIa1ShlShort (src : ShortSrc) (e : Bool) (s : State) : Out := .next (runMove (.short src (.trig (.ia .ia1 .shl)) e) s)

/-- IA1_SHR_SHORT (R174): Short form of ia1.shr. -/
def execIa1ShrShort (src : ShortSrc) (e : Bool) (s : State) : Out := .next (runMove (.short src (.trig (.ia .ia1 .shr)) e) s)

/-- IA1_SRA_SHORT (R174): Short form of ia1.sra. -/
def execIa1SraShort (src : ShortSrc) (e : Bool) (s : State) : Out := .next (runMove (.short src (.trig (.ia .ia1 .sra)) e) s)

/-- IA1_SEL_SHORT (R174): Short form of ia1.sel. -/
def execIa1SelShort (src : ShortSrc) (e : Bool) (s : State) : Out := .next (runMove (.short src (.trig (.ia .ia1 .sel)) e) s)

/-- IA1_CMPEQ_SHORT (R174): Short form of ia1.cmpeq. -/
def execIa1CmpeqShort (src : ShortSrc) (e : Bool) (s : State) : Out := .next (runMove (.short src (.trig (.ia .ia1 .cmpeq)) e) s)

/-- IA1_CMPLT_SHORT (R174): Short form of ia1.cmplt. -/
def execIa1CmpltShort (src : ShortSrc) (e : Bool) (s : State) : Out := .next (runMove (.short src (.trig (.ia .ia1 .cmplt)) e) s)

/-- IA1_CMPLTU_SHORT (R174): Short form of ia1.cmpltu. -/
def execIa1CmpltuShort (src : ShortSrc) (e : Bool) (s : State) : Out := .next (runMove (.short src (.trig (.ia .ia1 .cmpltu)) e) s)

/-- IA1_MIN_SHORT (R174): Short form of ia1.min. -/
def execIa1MinShort (src : ShortSrc) (e : Bool) (s : State) : Out := .next (runMove (.short src (.trig (.ia .ia1 .min)) e) s)

/-- IA1_MAX_SHORT (R174): Short form of ia1.max. -/
def execIa1MaxShort (src : ShortSrc) (e : Bool) (s : State) : Out := .next (runMove (.short src (.trig (.ia .ia1 .max)) e) s)

end Sys2Proof.Machine
end

