-- ==== Sys2Proof/Machine/ImMoves.lean ====
section
/-! DEFINITION. Meanings: triggers of im (R177, R178). Each is the shared effect of its move (Moves.lean). -/
namespace Sys2Proof.Machine

/-- IM_MUL (R177): 64-bit multiply, low half. -/
def execImMul (src : Src) (e : Bool) (s : State) : Out := .next (runMove (.transport src (.trig (.im .mul)) false 0 false 0 e) s)

/-- IM_MULH (R177): Signed multiply, high half. -/
def execImMulh (src : Src) (e : Bool) (s : State) : Out := .next (runMove (.transport src (.trig (.im .mulh)) false 0 false 0 e) s)

/-- IM_MULHU (R177): Unsigned multiply, high half. -/
def execImMulhu (src : Src) (e : Bool) (s : State) : Out := .next (runMove (.transport src (.trig (.im .mulhu)) false 0 false 0 e) s)

/-- IM_DIV (R177): Signed divide; quotient and remainder land at t+20. -/
def execImDiv (src : Src) (e : Bool) (s : State) : Out := .next (runMove (.transport src (.trig (.im .div)) false 0 false 0 e) s)

/-- IM_DIVU (R177): Unsigned divide. -/
def execImDivu (src : Src) (e : Bool) (s : State) : Out := .next (runMove (.transport src (.trig (.im .divu)) false 0 false 0 e) s)

/-- IM_REM (R177): Signed remainder. -/
def execImRem (src : Src) (e : Bool) (s : State) : Out := .next (runMove (.transport src (.trig (.im .rem)) false 0 false 0 e) s)

/-- IM_REMU (R177): Unsigned remainder. -/
def execImRemu (src : Src) (e : Bool) (s : State) : Out := .next (runMove (.transport src (.trig (.im .remu)) false 0 false 0 e) s)

/-- IM_MUL_SHORT (R177): Short form of im.mul. -/
def execImMulShort (src : ShortSrc) (e : Bool) (s : State) : Out := .next (runMove (.short src (.trig (.im .mul)) e) s)

/-- IM_MULH_SHORT (R177): Short form of im.mulh. -/
def execImMulhShort (src : ShortSrc) (e : Bool) (s : State) : Out := .next (runMove (.short src (.trig (.im .mulh)) e) s)

/-- IM_MULHU_SHORT (R177): Short form of im.mulhu. -/
def execImMulhuShort (src : ShortSrc) (e : Bool) (s : State) : Out := .next (runMove (.short src (.trig (.im .mulhu)) e) s)

/-- IM_DIV_SHORT (R177): Short form of im.div. -/
def execImDivShort (src : ShortSrc) (e : Bool) (s : State) : Out := .next (runMove (.short src (.trig (.im .div)) e) s)

/-- IM_DIVU_SHORT (R177): Short form of im.divu. -/
def execImDivuShort (src : ShortSrc) (e : Bool) (s : State) : Out := .next (runMove (.short src (.trig (.im .divu)) e) s)

/-- IM_REM_SHORT (R177): Short form of im.rem. -/
def execImRemShort (src : ShortSrc) (e : Bool) (s : State) : Out := .next (runMove (.short src (.trig (.im .rem)) e) s)

/-- IM_REMU_SHORT (R177): Short form of im.remu. -/
def execImRemuShort (src : ShortSrc) (e : Bool) (s : State) : Out := .next (runMove (.short src (.trig (.im .remu)) e) s)

end Sys2Proof.Machine
end

