-- ==== Sys2Proof/Machine/Crypto.lean ====
section
/-! DEFINITION. The published algorithms that spec/18_links_host_boot.md names (R388, R394, R397): SHA-256, AES-256 in Galois/Counter Mode as far as the
tag of a group needs it, and RSASSA-PSS verification (log entry 10). -/
namespace Sys2Proof.Machine

/-- A number from bytes, most significant first. -/
def ofBytesMsb (l : List Byte) : Nat := l.foldl (fun n b => n * 256 + b.toNat) 0
/-- The `n` bytes of a number, most significant first. -/
def toBytesMsb (n x : Nat) : List Byte := (List.range n).map (fun i => BitVec.ofNat 8 (x >>> (8 * (n - 1 - i))))

/-! ## SHA-256 -/

/-- The constants of the 64 rounds, that of round 0 in the low bits: the first 32 bits of the fractional parts of the cube roots of the first primes. -/
def shaRounds : Nat := 0xc67178f2bef9a3f7a4506ceb90befffa8cc7020884c8781478a5636f748f82ee682e6ff35b9cca4f4ed8aa4a391c0cb334b0bcb52748774c1e376c0819a4c116106aa070f40e3585d6990624d192e819c76c51a3c24b8b70a81a664ba2bfe8a192722c8581c2c92e766a0abb650a735453380d134d2c6dfc2e1b213827b70a851429296706ca6351d5a79147c6e00bf3bf597fc7b00327c8a831c66d983e515276f988da5cb0a9dc4a7484aa2de92c6f240ca1cc0fc19dc6efbe4786e49b69c1c19bf1749bdc06a780deb1fe72be5d74550c7dc3243185be12835b01d807aa98ab1c5ed5923f82a459f111f13956c25be9b5dba5b5c0fbcf71374491428a2f98
/-- The initial hash value, its first word in the high bits. -/
def shaStart : Nat := 0x6a09e667bb67ae853c6ef372a54ff53a510e527f9b05688c1f83d9ab5be0cd19
/-- The message schedule after `n` more words; the latest word is the head. -/
def shaSchedule : Nat → List (BitVec 32) → List (BitVec 32)
  | 0, w => w
  | n + 1, w =>
    let x := w.getD 14 0
    let y := w.getD 1 0
    let a := x.rotateRight 7 ^^^ x.rotateRight 18 ^^^ (x >>> 3)
    let b := y.rotateRight 17 ^^^ y.rotateRight 19 ^^^ (y >>> 10)
    shaSchedule n ((b + w.getD 6 0 + a + w.getD 15 0) :: w)
/-- The eight working words. -/
structure ShaWords where
  a : BitVec 32
  b : BitVec 32
  c : BitVec 32
  d : BitVec 32
  e : BitVec 32
  f : BitVec 32
  g : BitVec 32
  h : BitVec 32
deriving DecidableEq, Repr
/-- The rounds over the words of a schedule, with the constants that remain. -/
def shaCompress : List (BitVec 32) → Nat → ShaWords → ShaWords
  | [], _, v => v
  | w :: ws, k, v =>
    let t := v.h + (v.e.rotateRight 6 ^^^ v.e.rotateRight 11 ^^^ v.e.rotateRight 25) + ((v.e &&& v.f) ^^^ (~~~v.e &&& v.g)) + BitVec.ofNat 32 k + w
    let u := (v.a.rotateRight 2 ^^^ v.a.rotateRight 13 ^^^ v.a.rotateRight 22) + ((v.a &&& v.b) ^^^ (v.a &&& v.c) ^^^ (v.b &&& v.c))
    shaCompress ws (k >>> 32) ⟨t + u, v.a, v.b, v.c, v.d + t, v.e, v.f, v.g⟩
/-- The hash value after a block of 64 bytes. -/
def shaBlock (h : Nat) (block : List Byte) : Nat :=
  let w0 := (List.range 16).map (fun i => BitVec.ofNat 32 (ofBytesMsb ((block.drop (4 * i)).take 4)))
  let word := fun i => BitVec.ofNat 32 (h >>> (32 * (7 - i)))
  let v := shaCompress (shaSchedule 48 w0.reverse).reverse shaRounds ⟨word 0, word 1, word 2, word 3, word 4, word 5, word 6, word 7⟩
  [word 0 + v.a, word 1 + v.b, word 2 + v.c, word 3 + v.d, word 4 + v.e, word 5 + v.f, word 6 + v.g, word 7 + v.h].foldl (fun n x => n * 2 ^ 32 + x.toNat) 0
/-- The blocks of a message, one after the other. -/
def shaBlocks : Nat → List Byte → Nat → Nat
  | 0, _, h => h
  | n + 1, l, h => shaBlocks n (l.drop 64) (shaBlock h (l.take 64))
/-- SHA-256 of a byte string; the first byte of the digest is its most significant. -/
def sha256 (l : List Byte) : BitVec 256 :=
  let zeros := (119 - l.length % 64) % 64
  let padded := l ++ 0x80 :: List.replicate zeros 0 ++ toBytesMsb 8 (8 * l.length)
  BitVec.ofNat 256 (shaBlocks (padded.length / 64) padded shaStart)

/-! ## AES-256 in Galois/Counter Mode -/

/-- The S-box of AES, its value at 0 in the low bits. -/
def aesBox : Nat := 0x16bb54b00f2d99416842e6bf0d89a18cdf2855cee9871e9b948ed9691198f8e19e1dc186b95735610ef6034866b53e708a8bbd4b1f74dde8c6b4a61c2e2578ba08ae7a65eaf4566ca94ed58d6d37c8e779e4959162acd3c25c2406490a3a32e0db0b5ede14b8ee4688902a22dc4f816073195d643d7ea7c41744975fec130ccdd2f3ff1021dab6bcf5389d928f40a351a89f3c507f02f94585334d43fbaaefd0cf584c4a39becb6a5bb1fc20ed00d153842fe329b3d63b52a05a6e1b1a2c830975b227ebe28012079a059618c323c7041531d871f1e5a534ccf73f362693fdb7c072a49cafa2d4adf04759fa7dc982ca76abd7fe2b670130c56f6bf27b777c63
def aesSub (x : Byte) : Byte := BitVec.ofNat 8 (aesBox >>> (8 * x.toNat))
/-- Multiplication by x in the field of AES. -/
def aesTwice (x : Byte) : Byte := if x.getLsbD 7 then (x <<< 1) ^^^ 0x1b else x <<< 1
/-- The key schedule after `n` more words of four bytes, the `i`-th next; the latest word is the head. -/
def aesSchedule : Nat → Nat → Byte → List (List Byte) → List (List Byte)
  | 0, _, _, w => w
  | n + 1, i, rc, w =>
    let p := w.headD []
    let q :=
      if i % 8 = 0 then (match (p.drop 1 ++ p.take 1).map aesSub with | x :: l => (x ^^^ rc) :: l | [] => [])
      else if i % 8 = 4 then p.map aesSub else p
    aesSchedule n (i + 1) (if i % 8 = 0 then aesTwice rc else rc) (List.zipWith (· ^^^ ·) q (w.getD 7 []) :: w)
/-- The fifteen round keys. -/
def aesKeys (k : BitVec 256) : List (List Byte) :=
  let b := toBytesMsb 32 k.toNat
  let w := (aesSchedule 52 8 1 ((List.range 8).map (fun i => (b.drop (4 * i)).take 4)).reverse).reverse
  (List.range 15).map (fun r => ((w.drop (4 * r)).take 4).flatten)
/-- S-box and row shift of a state of sixteen bytes, column by column. -/
def aesShift (l : List Byte) : List Byte := (List.range 16).map (fun i => aesSub (l.getD ((i + 4 * (i % 4)) % 16) 0))
/-- The mixing of the columns. -/
def aesMix (l : List Byte) : List Byte :=
  (List.range 16).map (fun i =>
    let x := fun j => l.getD (4 * (i / 4) + (i + j) % 4) 0
    aesTwice (x 0) ^^^ aesTwice (x 1) ^^^ x 1 ^^^ x 2 ^^^ x 3)
/-- The rounds with the keys that remain; the last one does not mix. -/
def aesRounds : List (List Byte) → List Byte → List Byte
  | [], l => l
  | [k], l => List.zipWith (· ^^^ ·) (aesShift l) k
  | k :: ks, l => aesRounds ks (List.zipWith (· ^^^ ·) (aesMix (aesShift l)) k)
/-- AES-256 of a block of 128 bits. -/
def aes256 (k : BitVec 256) (x : BitVec 128) : BitVec 128 :=
  match aesKeys k with
  | k0 :: ks => BitVec.ofNat 128 (ofBytesMsb (aesRounds ks (List.zipWith (· ^^^ ·) (toBytesMsb 16 x.toNat) k0)))
  | [] => x

/-- The product of GHASH: the bits of `x` from bit `n - 1` down that remain, with `v` for the next of them. -/
def ghashGo (x : BitVec 128) : Nat → BitVec 128 → BitVec 128 → BitVec 128
  | 0, _, z => z
  | n + 1, v, z =>
    ghashGo x n (if v.getLsbD 0 then (v >>> 1) ^^^ (0xe1 <<< 120) else v >>> 1) (if x.getLsbD n then z ^^^ v else z)
/-- The blocks of a byte string, the last filled with zeros. -/
def blocks16 (l : List Byte) : List (BitVec 128) :=
  (List.range (ceilDiv l.length 16)).map (fun i =>
    let b := (l.drop (16 * i)).take 16
    BitVec.ofNat 128 (ofBytesMsb (b ++ List.replicate (16 - b.length) 0)))
/-- The first 96 bits of the AES-256-GCM tag: key, initialisation vector, additional data, and the data as the link carries them. -/
def gcmTag (k : BitVec 256) (iv : BitVec 96) (aad data : List Byte) : BitVec 96 :=
  let h := aes256 k 0
  let lens : BitVec 128 := BitVec.ofNat 128 (8 * aad.length * 2 ^ 64 + 8 * data.length)
  let s := (blocks16 aad ++ blocks16 data ++ [lens]).foldl (fun y b => ghashGo (y ^^^ b) 128 h 0) 0
  (aes256 k (iv ++ (1 : BitVec 32)) ^^^ s).extractLsb' 32 96

/-! ## RSASSA-PSS -/

/-- `x` squared `n` times, modulo `m`. -/
def squareMod (m : Nat) : Nat → Nat → Nat
  | 0, x => x
  | n + 1, x => squareMod m n (x * x % m)
/-- The mask of `n` blocks of 32 bytes that MGF1 makes of a seed. -/
def mgf1 (seed : List Byte) (n : Nat) : List Byte := (List.range n).flatMap (fun i => toBytesMsb 32 (sha256 (seed ++ toBytesMsb 4 i)).toNat)
/-- RSASSA-PSS verification of a 3072-bit modulus with exponent 65,537, SHA-256 and a 32-byte salt, over a digest. -/
def pssVerify (m s : Nat) (digest : BitVec 256) : Bool :=
  let em := toBytesMsb 384 (squareMod m 16 s * s % m)
  let h := (em.drop 351).take 32
  let db := match List.zipWith (· ^^^ ·) (em.take 351) (mgf1 h 11) with | x :: l => (x &&& 0x7f) :: l | [] => []
  let salt := db.drop 319
  decide (2 ^ 3071 ≤ m) && decide (m < 2 ^ 3072) && decide (s < m) && em.drop 383 == [0xbc] && !(em.getD 0 0).getLsbD 7 &&
    db.take 319 == List.replicate 318 0 ++ [1] && toBytesMsb 32 (sha256 (List.replicate 8 0 ++ toBytesMsb 32 digest.toNat ++ salt)).toNat == h

end Sys2Proof.Machine
end

