-- ==== Sys2Proof/Machine/PlanSetup.lean ====
section
/-! DEFINITION. Setting up and freeing plans: the checks of plan_setup (spec/11_puzil.md R281) with the channels of links (R272), loading (R273), freeing
(spec/15_region_scheduler.md R343), host triggers (R274; spec/14_system_state.md R313) and release (R275). -/
namespace Sys2Proof.Machine

/-! ## Words of a program -/

/-- The programs of a plan under its checks: the ranks, their engines, and the latency of each valid link of a rank. -/
structure PlanView where
  d     : Descr
  ranks : List RankSpec
  engs  : List Nat
deriving DecidableEq, Repr

/-- A word of a list of words. -/
def wordAt (ws : List Nat) (k : Nat) : Nat := ws.getD k 0
/-- Every op that a program executes, as word and iteration; loop words execute nothing (R294). -/
def expandOps (ws : List Nat) : List (Nat × Nat) :=
  (List.range ws.length).flatMap (fun k =>
    if bitsOf (wordAt ws k) 127 124 = 13 then []
    else match loopOf (wordAt ws) k with
      | none => [(k, 0)]
      | some j => (List.range (bitsOf (wordAt ws j) 83 68)).map (fun i => (k, i)))
/-- The offset at which an iteration executes. -/
def ofsAt (ws : List Nat) (q : Nat × Nat) : Nat :=
  bitsOf (wordAt ws q.1) 115 92 + (match loopOf (wordAt ws) q.1 with | some j => q.2 * bitsOf (wordAt ws j) 67 44 | none => 0)
/-- The fields of an iteration. -/
def opOf (ws : List Nat) (q : Nat × Nat) : PzOp := { pzOf (opWordAt (wordAt ws) q.1 q.2) with ofs := ofsAt ws q }

/-- Which of A, B and D an op uses (R280). -/
def PzOp.usesA (o : PzOp) : Bool := o.opc == 1 || (decide (3 ≤ o.opc) && decide (o.opc ≤ 10))
def PzOp.usesB (o : PzOp) : Bool := (decide (4 ≤ o.opc) && decide (o.opc ≤ 7)) || o.opc == 10
def PzOp.usesD (o : PzOp) : Bool := decide (2 ≤ o.opc) && decide (o.opc ≤ 9)
/-- The chunk addresses that an op uses. -/
def PzOp.used (o : PzOp) : List Nat := (if o.usesA then [o.a] else []) ++ (if o.usesB then [o.b] else []) ++ (if o.usesD then [o.d] else [])

/-! ## Encoding (code 7) -/

/-- A word with what later checks judge taken out: the window bits of the addresses that its op uses, and OFS and STEP of a loop. -/
def pzBare (w : Nat) : Nat :=
  let o := pzOf w
  let cut := fun on x n => if on && Nat.testBit x 21 then x % 2 ^ n else x
  let n := if o.opc = 3 then 16 else 21
  if o.opc = 13 then 13 * 2 ^ 124 + w % 2 ^ 92
  else w / 2 ^ 92 * 2 ^ 92 + cut o.usesA o.a n * 2 ^ 70 + cut o.usesB o.b n * 2 ^ 48 + cut o.usesD o.d n * 2 ^ 26 + w % 2 ^ 26
/-- A word that R281 refuses as an encoding: one that no op has, or a window with bit 20 set. -/
def pzBadWord (w : Nat) : Bool :=
  let o := pzOf w
  (decodePuzil (pzBare w)).isNone || o.used.any (fun x => x.testBit 21 && x.testBit 20)

/-- A dcmp whose PEER is no rank of a plan of `n` ranks: a value outside the range of its entry (log entry 28). -/
def badPeer (n w : Nat) : Bool := (pzOf w).opc == 10 && decide (n ≤ bitsOf (pzOf w).x 14 7)

/-! ## Ranks and links (code 9) -/

/-- The logical-die distance from an engine's home die to a die, whose row counts on through the parts. -/
def distTo (d : Descr) (e u v : Nat) : Nat :=
  let w := engV e + 8 * enginePart d e
  (max (engU e) u - min (engU e) u) + (max w v - min w v)
/-- The fabric crossings between two parts. -/
def partsApart (p q : Nat) : Nat := max p q - min p q
/-- A link of rank `k` as its word gives it (R272): to a core, 36 + 24 d stitches from the engine's home die to that of the core, or to a rank,
24 + 24 d, and L more for each fabric crossing. DESIGN CHOICE (log entry 27): each fabric crossing adds one to the distance, so that it counts two
die crossings as in R383. A core of another part is numbered behind those of this package. -/
def PlanView.link (p : PlanView) (k l : Nat) : Option Link :=
  let e := p.engs.getD k 0
  if l.testBit 30 then
    let x := bitsOf l 7 0
    let y := bitsOf l 15 8
    let q := bitsOf l 19 16
    let f := partsApart q (enginePart p.d e)
    let d := distTo p.d e ((p.d.x0 + x) / 8) ((p.d.y0 + y) / 8 + 8 * q) + f
    if x < p.d.wid ∧ y < p.d.hgt ∧ q < p.d.npkg ∧ bitsOf l 29 20 = 0 then
      some { toCore := true, peer := x + p.d.wid * (y + if q = p.d.pkg then 0 else 64 * (q + 1)), lam := 36 + 24 * d + p.d.lfab * f, fab := f, away := q != p.d.pkg }
    else none
  else
    let m := bitsOf l 15 0
    let z := p.engs.getD m 0
    let f := partsApart (enginePart p.d z) (enginePart p.d e)
    if m < p.ranks.length ∧ m ≠ k ∧ bitsOf l 29 16 = 0 then
      some { toCore := false, peer := m, lam := 24 + 24 * (distTo p.d e (engU z) (engV z + 8 * enginePart p.d z) + f) + p.d.lfab * f, fab := f, away := 192 ≤ z }
    else none
def PlanView.links (p : PlanView) (k : Nat) : Map Link :=
  match p.ranks[k]? with
  | some q => q.links.filterMap (fun l => (p.link k l.2).map (fun x => (l.1, x)))
  | none => []

/-- The link of an op of rank `k` that its X or an address names, of the wanted kind. -/
def linkKind (ls : Map Link) (n : Nat) (toCore : Bool) : Bool := match mget ls n with | some l => l.toCore == toCore | none => false
/-- Does an op use a link of the wrong kind? -/
def PzOp.badLink (o : PzOp) (ls : Map Link) : Bool :=
  ((o.opc == 1 || o.opc == 2) && !linkKind ls (bitsOf o.x 14 11) false) || (o.opc == 11 && !linkKind ls (bitsOf o.x 14 11) true) ||
  o.used.any (fun x => x.testBit 21 && !linkKind ls (bitsOf x 19 16) true)

/-- Is a channel of a seam, router output or port direction free for a link (R272)? -/
def chanFree (r : Region) (taken : List (Nat × Nat × Nat)) (seam c : Nat) : Bool :=
  r.routes.all (fun q => !(decide (q.2.ch ≤ c) && decide (c < q.2.ch + q.2.width) && (q.2.uses r.d).contains seam)) &&
  taken.all (fun t => !(t.2.1 == seam && decide (t.2.2 ≤ c) && decide (c < t.2.2 + 24)))
/-- The way between an engine's bridge and its home die (R269): the direction out of the die, and what the bridge's side of it is on this package, in
and out: 4 times (120 + engine key) plus the direction is the output of the bridge's own router (spec/01_panel.md), and then comes the seam. -/
def bridgeWay (d : Descr) (e : Nat) : Nat × List Nat :=
  let o := if e % 192 < 96 then 1 else 0
  (o, if enginePart d e ≠ d.pkg then [] else
    [4 * (120 + e) + o + 2] ++ (if o = 0 then [4 * (engU e + 12 * (engV e + 1)) + 2] else if engU e < 11 then [4 * (engU e + 1 + 12 * engV e) + 3] else []))
/-- The core at which a path between a bridge and its home die crosses the die's edge, in the core column or row `c`; y counts on through the parts. -/
def bridgeCore (d : Descr) (e c : Nat) : Nat × Nat :=
  let v := 8 * (engV e + 8 * enginePart d e)
  if e % 192 < 96 then (8 * engU e + 7, v + c) else (8 * engU e + c, v + 7)
/-- What a link of rank `k`, as its word gives it, uses on this package (R272): from the engine's bridge over the seam into its home die, along the
column first and then along the row, to the core, or to the peer's home die and over the seam to its bridge. DESIGN CHOICE (log entry 27): inside the
dies it runs in the core column and row of the core that it names, and in the first of each towards a rank; the seam of a bridge is that of the
logical map, east of the home die for an MH and north of it for an MV. -/
def PlanView.linkUses (p : PlanView) (k l : Nat) : List Nat :=
  let e := p.engs.getD k 0
  let z := p.engs.getD (bitsOf l 15 0) 0
  let core := l.testBit 30
  let goal := if core then (p.d.x0 + bitsOf l 7 0, p.d.y0 + bitsOf l 15 8 + 64 * bitsOf l 19 16) else bridgeCore p.d z 0
  let start := bridgeCore p.d e (if e % 192 < 96 then goal.2 % 8 else goal.1 % 8)
  (bridgeWay p.d e).2 ++ (legsOf start.1 start.2 goal.1 goal.2 1).flatMap (Leg.uses p.d.pkg) ++
    (if core then [] else Leg.uses p.d.pkg (goal.1, goal.2, (bridgeWay p.d z).1))
/-- The words of a rank's valid links. -/
def PlanView.linkWords (p : PlanView) (k : Nat) : Map Nat := match p.ranks[k]? with | some q => q.links.filter (fun l => (p.link k l.2).isSome) | none => []
/-- Take channels for every link of a plan in order of rank and link: link (16 times the rank plus its number), what it uses, first channel. None where
some link finds no 24 channels. -/
def PlanView.takeChans (p : PlanView) (r : Region) (others : List (Nat × Nat × Nat)) : Option (List (Nat × Nat × Nat)) :=
  ((List.range p.ranks.length).flatMap (fun k => (p.linkWords k).map (fun l => (16 * k + l.1, p.linkUses k l.2)))).foldl (fun acc q =>
    acc.bind (fun l =>
      match (List.range 169).find? (fun c => q.2.all (fun sm => (List.range 24).all (fun i => chanFree r (others ++ l) sm (c + i)))) with
      | some c => some (l ++ q.2.map (fun sm => (q.1, sm, c)))
      | none => none)) (some [])

/-! ## Placement, timetable, pairing and end (codes 10 to 13) -/

/-- An access of an op: the offset at which it claims its bank, the chunk address and its bytes. -/
abbrev PzAccess := Nat × Nat × Nat

/-- The write of an op: when, where and how much (R282 to R291). -/
def PzOp.writes (o : PzOp) (ls : Map Link) : List PzAccess :=
  let lam := fun x => (mget ls (bitsOf x 19 16)).elim 0 Link.lam
  match o.opc with
  | 2 => [(o.ofs, o.d, o.bytes)]
  | 3 =>
    let width := fun c => (Fmt.ofCode c).elim 8 Fmt.width
    [(o.ofs + (if o.a.testBit 21 then lam o.a else if o.d.testBit 21 then lam o.d else 2), o.d, 8 * o.bytes / width (bitsOf o.x 14 11) * width (bitsOf o.x 10 7) / 8)]
  | 4 | 6 => [(o.ofs + 4, o.d, o.bytes)]
  | 5 | 7 => [(o.ofs + 6, o.d, o.bytes)]
  | 8 => [(o.ofs + 6, o.d, 4 * (o.len + 1))]
  | 9 => [(o.ofs + 4, o.d, 8)]
  | _ => []
/-- Every access of an op. -/
def PzOp.accesses (o : PzOp) (ls : Map Link) : List PzAccess := o.reads.map (fun q => (o.ofs, q.1, q.2)) ++ o.writes ls
/-- The offset by which an op has made its write, landing or token. DESIGN CHOICE (log entry 28): an op that makes none of them is done at its own
offset, and so is a send, whose chunk the recv of its peer lands (R282). -/
def PzOp.doneBy (o : PzOp) (ls : Map Link) : Nat :=
  if o.opc = 11 then o.ofs + (mget ls (bitsOf o.x 14 11)).elim 0 Link.lam else (o.writes ls).foldl (fun m w => max m w.1) o.ofs

/-- May a plan of a region use a bank of an engine's local memory: any of an MV, a granted one outside the preserve area and the journal of an MH
(R268)? -/
def Descr.mayUse (d : Descr) (e b : Nat) : Bool := decide (96 ≤ e % 192) || (d.granted (engBase e + 2 ^ 20 * b) && !d.reserved (engBase e + 2 ^ 20 * b))
/-- Does an access lie where R281 lets it lie? -/
def accessPlaced (d : Descr) (e : Nat) (q : PzAccess) : Bool :=
  if q.2.1.testBit 21 then scrIn (32 * (q.2.1 % 2 ^ 16)) q.2.2
  else
    let a := 32 * (q.2.1 % 2 ^ 21)
    a / 2 ^ 20 == (a + q.2.2 - 1) / 2 ^ 20 && d.mayUse e (a / 2 ^ 20)
/-- Do the advanced addresses of an iteration stay inside their fields? -/
def advPlaced (ws : List Nat) (q : Nat × Nat) : Bool :=
  match loopOf (wordAt ws) q.1 with
  | none => true
  | some j =>
    let o := pzOf (wordAt ws q.1)
    let adv := bitsOf (wordAt ws q.1) 17 15
    [(0, o.a), (1, o.b), (2, o.d)].all (fun x =>
      !adv.testBit x.1 || (let y := advRaw x.2 q.2 (wordAt ws j); decide (0 ≤ y) && decide (y < Int.ofNat (2 ^ unitBits x.2))))
/-- The placement of one op (R281). -/
def PzOp.placed (o : PzOp) (d : Descr) (e : Nat) (ls : Map Link) : Bool :=
  let w := fun (x : Nat) => x.testBit 21
  (o.accesses ls).all (accessPlaced d e) &&
  !(o.usesB && !w o.a && !w o.b && o.a / 2 ^ 15 == o.b / 2 ^ 15) &&
  (if o.opc = 3 then !(w o.a && w o.d) else !o.used.any w)

/-- The local bank that an access claims, with its offset; and the bank of a core. -/
def localClaim (q : PzAccess) : Option (Nat × Nat) := if q.2.1.testBit 21 then none else some (q.1, q.2.1 % 2 ^ 21 / 2 ^ 15)
def windowClaim (ls : Map Link) (q : PzAccess) : Option (Nat × Nat × Nat) :=
  if q.2.1.testBit 21 then (mget ls (bitsOf q.2.1 19 16)).map (fun l => (q.1, l.peer, bankOf (32 * (q.2.1 % 2 ^ 16)))) else none
/-- Does a list hold a value twice? -/
def twice {α : Type} [BEq α] (l : List α) : Bool := l.any (fun x => decide (1 < l.count x))

/-- The ops of a rank as they execute. -/
def PlanView.ops (p : PlanView) (k : Nat) : List PzOp :=
  match p.ranks[k]? with | some q => (expandOps q.words).map (opOf q.words) | none => []
/-- The sends and recvs of a rank: offset, offset at the peer, peer, LEN. -/
def PlanView.moves (p : PlanView) (k opc : Nat) : List (Nat × Nat × Nat × Nat) :=
  ((p.ops k).filter (fun o => o.opc == opc)).map (fun o =>
    let l := (mget (p.links k) (bitsOf o.x 14 11)).getD { toCore := false, peer := 0, lam := 0 }
    (o.ofs, o.ofs + l.lam, l.peer, o.len))
/-- Is every send of the plan paired with exactly one recv, and every recv with a send (R281)? -/
def PlanView.paired (p : PlanView) : Bool :=
  (List.range p.ranks.length).all (fun k =>
    (p.moves k 1).all (fun q => ((p.moves q.2.2.1 2).filter (fun z => z.1 == q.2.1 && z.2.2.1 == k && z.2.2.2 == q.2.2.2)).length == 1) &&
    (p.moves k 2).all (fun z => (p.moves z.2.2.1 1).any (fun q => q.2.1 == z.1 && q.2.2.1 == k && q.2.2.2 == z.2.2.2)))
/-- The rules of `end` and of loops (R281, R294), on the words of a program. -/
def endsWell (ws : List Nat) : Bool :=
  let opc := fun k => bitsOf (wordAt ws k) 127 124
  decide (0 < ws.length) &&
  (List.range ws.length).all (fun k =>
    (opc k == 14) == (k + 1 == ws.length) &&
    (if opc k = 13 then
      bitsOf (wordAt ws k) 123 92 == 0 && decide (k + bitsOf (wordAt ws k) 91 84 < ws.length) &&
        (List.range (bitsOf (wordAt ws k) 91 84)).all (fun i => opc (k + 1 + i) != 13 && opc (k + 1 + i) != 14)
     else (loopOf (wordAt ws) k).isSome || opc k == 14 || bitsOf (wordAt ws k) 17 15 == 0))
/-- Do the ops of a rank end by its `end`, and does every wait hold (R281, R293)? DESIGN CHOICE (log entry 28): an op whose own offset is later than
`end`'s is refused too, also where it writes nothing. -/
def timesWell (os : List PzOp) (ls : Map Link) : Bool :=
  let e := (os.getLast?).elim 0 PzOp.ofs
  os.all (fun o => decide (o.doneBy ls ≤ e)) &&
  os.all (fun o => o.opc != 12 || os.all (fun q => decide (o.ofs ≤ q.ofs) || decide (q.doneBy ls ≤ o.ofs)))

/-! ## The checks together -/

/-- Every resident plan of the package, with its region. -/
def State.plansAll (s : State) : List (Nat × Plan) := s.regions.flatMap (fun r => r.2.plans.map (fun p => (r.1, p)))
/-- The places in an engine's program memory that resident plans take. -/
def State.engUse (s : State) (e : Nat) : List (Nat × Nat) :=
  s.plansAll.flatMap (fun q => (q.2.ranks.filter (fun k => k.engine == e)).map (fun k => (k.base, k.words)))
/-- The words of an engine's program memory that resident plans take. -/
def State.engWords (s : State) (e : Nat) : Nat := (s.engUse e).foldl (fun m u => m + u.2) 0
/-- The lowest place for `n` words in an engine's program memory. -/
def State.engFit (s : State) (e n : Nat) : Option Nat :=
  let us := s.engUse e
  ((0 :: us.map (fun u => u.1 + u.2)).filter (fun b => decide (b + n ≤ 4096) && us.all (fun u => decide (b + n ≤ u.1) || decide (u.1 + u.2 ≤ b)))).foldl
    (fun m b => some (match m with | some x => min x b | none => b)) none

/-- Move the programs that an engine holds together, in the order of their places, so that its free words lie in one piece. DESIGN CHOICE (log entry
52): R281 refuses a plan for the sum of the words alone, and no rule says where a program lies. -/
def State.packEng (s : State) (e : Nat) : State :=
  let old := mgetD s.engines e []
  let rs := s.regions.flatMap (fun r => r.2.plans.flatMap (fun p => ((List.range p.ranks.length).map (fun k => (r.1, p.handle, k, (p.ranks[k]?).getD { engine := 0, base := 0, words := 0 }))).filter (fun q => q.2.2.2.engine == e)))
  let sorted := rs.foldl (fun l q => insertBy (fun x => x.2.2.2.base) q l) []
  (sorted.foldl (fun (acc : Nat × State) q =>
    let rk := q.2.2.2
    let eng := (List.range rk.words).foldl (fun m i => mset m (acc.1 + i) (mgetD old (rk.base + i) 0)) (mgetD acc.2.engines e [])
    (acc.1 + rk.words, ({ acc.2 with engines := mset acc.2.engines e eng }).modRgn q.1 (fun r => r.modRank q.2.1 q.2.2.1 (fun k => { k with base := acc.1 })))) (0, s)).2

/-- Does the link of a fabric port carry traffic of a partition: it is up, its key set is the partition's, and it is no longer than R30 allows
(spec/18_links_host_boot.md R386, R387)? -/
def State.portCarries (s : State) (part h : Nat) : Bool :=
  let p := mgetD s.ports h {}
  p.up && decide (p.lfab ≤ 256) && p.keyset == bitsOf (s.part part 5).toNat 4 0
def State.port (s : State) (h : Nat) : Port := mgetD s.ports h {}
def State.modPort (s : State) (h : Nat) (f : Port → Port) : State := { s with ports := mset s.ports h (f (s.port h)) }
/-- The package and port that port h is cabled to: that of the physical H-die that holds logical H-die h (R379). -/
def State.partnerOf (s : State) (h : Nat) : Nat × Nat := Config.partner (s.hPhys h)
/-- Does a region cross a port: by a route, a plan, or the way to a die that a spare on the port's other package serves, which takes the ports of its
partition's key set (R387; spec/16_faults_recovery.md R369)? -/
def State.crosses (s : State) (r : Region) (h : Nat) : Bool :=
  r.usesPort h || s.maps.remote.any (fun q => r.d.onDie (q.1 % 12) (q.1 / 12) && q.2.1 == (s.partnerOf h).1 &&
    (s.port h).keyset == bitsOf (s.part r.d.part 5).toNat 4 0)
/-- Is there a port by which regions of a partition may cross to a package? -/
def State.remoteOk (s : State) (part pkg : Nat) : Bool := (List.range 24).any (fun h => (s.partnerOf h).1 == pkg && s.portCarries part h)
/-- The largest latency of the fabric links among what routes and plans use (R30), of those of this package. -/
def State.lfabOf (s : State) (uses : List Nat) : Nat :=
  (List.range 24).foldl (fun m h => if uses.contains (2 ^ 16 + 2 * h) || uses.contains (2 ^ 16 + 2 * h + 1) then max m (mgetD s.ports h {}).lfab else m) 0
/-- What the valid links of a plan use. -/
def PlanView.uses (p : PlanView) : List Nat := (List.range p.ranks.length).flatMap (fun k => (p.linkWords k).flatMap (fun l => p.linkUses k l.2))

/-- The code with which plan_setup refuses a plan of a region (R281, R334): the lowest that applies (log entry 28); else the view of the plan and the
channels of its links. -/
def State.planCheck (s : State) (rg : Nat) (ks : List RankSpec) : Nat ⊕ (PlanView × List (Nat × Nat × Nat)) :=
  let r := s.rgn rg
  let d := r.d
  let engs := ks.map (fun k => k.engine d)
  let es := engs.filterMap id
  let p : PlanView := { d := d, ranks := ks, engs := engs.map (fun e => e.getD 0) }
  let rs := List.range ks.length
  let foreign := fun e => s.plansAll.any (fun q => q.1 != rg && q.2.ranks.any (fun k => k.engine == e))
  if ks.any (fun k => k.words.any (fun w => pzBadWord w || badPeer ks.length w)) then .inl 7
  else if (rs.any (fun k => match ks[k]?, engs[k]? with
      | some q, some (some e) => decide (4096 < s.engWords e + q.words.length) || decide (16 ≤ (s.engUse e).length)
      | _, _ => false)) then .inl 8
  else if ks.isEmpty || decide (256 < ks.length) || es.length != ks.length || twice es || es.any foreign ||
      rs.any (fun k => (ks[k]?).any (fun q => q.links.any (fun l => (p.link k l.2).isNone)) || (p.ops k).any (fun o => o.badLink (p.links k))) then .inl 9
  else if (List.range 24).any (fun h => (p.uses.contains (2 ^ 16 + 2 * h) || p.uses.contains (2 ^ 16 + 2 * h + 1)) && !s.portCarries d.part h) then .inl 9
  else match p.takeChans r (s.plansAll.flatMap (fun q => q.2.chans)) with
    | none => .inl 9
    | some ch =>
      if rs.any (fun k => (ks[k]?).any (fun q => !(expandOps q.words).all (advPlaced q.words)) || (p.ops k).any (fun o => !o.placed d (p.engs.getD k 0) (p.links k))) then .inl 10
      else if rs.any (fun k => twice ((p.ops k).map PzOp.ofs) || twice ((p.ops k).flatMap (fun o => (o.accesses (p.links k)).filterMap localClaim))) ||
          twice (rs.flatMap (fun k => (p.ops k).flatMap (fun o => (o.accesses (p.links k)).filterMap (windowClaim (p.links k))))) then .inl 11
      else if !p.paired then .inl 12
      else if ks.any (fun q => !endsWell q.words) || rs.any (fun k => !timesWell (p.ops k) (p.links k)) then .inl 13
      else .inr (p, ch)

/-- The local banks that a plan reserves. DESIGN CHOICE (log entry 52): the plan object of R339 lists none, so they are those that its local chunks
name. -/
def PlanView.banks (p : PlanView) : List (Nat × Nat) :=
  ((List.range p.ranks.length).flatMap (fun k => (p.ops k).flatMap (fun o => (o.accesses (p.links k)).filterMap (fun q =>
    (localClaim q).map (fun c => (p.engs.getD k 0, c.2)))))).eraseDups

/-- Load a plan that has passed its checks, under a handle: its words, its banks zero where no other plan of the region has reserved them, and no
firing (R273). A plan of one member is degenerate, and one whose element count is zero: DEDUCED (log entry 52), one in which no op uses a chunk (R296). -/
def State.planLoad (s0 : State) (rg fpa index handle : Nat) (p : PlanView) (ch : List (Nat × Nat × Nat)) : State :=
  let s := (List.range p.ranks.length).foldl (fun (t : State) k =>
    let e := p.engs.getD k 0
    if (t.engFit e ((p.ranks[k]?).elim 0 (fun q => q.words.length))).isNone then t.packEng e else t) s0
  let bases := (List.range p.ranks.length).map (fun k => (s.engFit (p.engs.getD k 0) ((p.ranks[k]?).elim 0 (fun q => q.words.length))).getD 0)
  let ranks : List Rank := (List.range p.ranks.length).map (fun k =>
    { engine := p.engs.getD k 0, base := bases.getD k 0, words := (p.ranks[k]?).elim 0 (fun q => q.words.length), links := p.links k })
  let s1 := (List.range p.ranks.length).foldl (fun s k => s.loadWords (p.engs.getD k 0) (bases.getD k 0) ((p.ranks[k]?).elim [] RankSpec.words)) s
  let s2 := (p.banks.filter (fun b => !(s.rgn rg).plans.any (fun q => q.banks.contains b))).foldl (fun s b => s.zeroBank b.1 b.2) s1
  let degen := p.ranks.length == 1 || (List.range p.ranks.length).all (fun k => (p.ops k).all (fun o => o.used.isEmpty))
  let clen := if degen then 0 else (List.range p.ranks.length).foldl (fun m k => max m (((p.ops k).getLast?).elim 0 PzOp.ofs)) 0
  s2.modRgn rg (fun r => { r with plans := r.plans ++
    [{ handle := handle, index := index, fpa := fpa, ranks := ranks, banks := p.banks, chans := ch, clen := clen, degen := degen }] })

/-- A handle for a new plan: 32 bits, not zero, and not that of a plan of the package that is set up (spec/15_region_scheduler.md R340): the first such
number from the scheduler's count on. -/
def State.newHandle (s : State) : Nat :=
  let used := s.plansAll.map (fun q => q.2.handle)
  (((List.range (used.length + 2)).map (fun i => (s.sched.handle + i) % 2 ^ 32)).find? (fun h => h != 0 && !used.contains h)).getD 1

/-- L of a region becomes `n`, and with it the latency of the links of its plans that cross the fabric (R30, R272). -/
def Plan.setL (p : Plan) (old n : Nat) : Plan :=
  { p with ranks := p.ranks.map (fun k => { k with links := k.links.map (fun l => (l.1, { l.2 with lam := l.2.lam + n * l.2.fab - old * l.2.fab })) }) }
def Region.setL (r : Region) (n : Nat) : Region := { r with d := { r.d with lfab := n }, plans := r.plans.map (fun p => p.setL r.d.lfab n) }
/-- The latency of the longest fabric link that a region's routes and plans use as they stand (R30). -/
def State.lfabNow (s : State) (r : Region) : Nat := (List.range 24).foldl (fun m h => if r.usesPort h then max m (mgetD s.ports h {}).lfab else m) 0
/-- L of a region with one more plan: that of the longest fabric link that it then uses (R30). -/
def State.withLinks (s : State) (rg : Nat) (ks : List RankSpec) : State :=
  let d := (s.rgn rg).d
  let p : PlanView := { d := d, ranks := ks, engs := ks.map (fun k => (k.engine d).getD 0) }
  if d.band = 3 then s.modRgn rg (fun r => r.setL (max d.lfab (s.lfabOf p.uses))) else s
/-- Set up the plan of an object for a region: the refusal code, or the state and the handle. -/
def State.planTry (s0 : State) (rg fpa index : Nat) : Nat ⊕ (State × Nat) :=
  match s0.planObject (s0.rgn rg).pl.image fpa with
  | none => .inl 1
  | some ks =>
    let s := s0.withLinks rg ks
    match s.planCheck rg ks with
    | .inl c => .inl c
    | .inr (p, ch) =>
      let h := s.newHandle
      .inr (({ s with sched := { s.sched with handle := (h + 1) % 2 ^ 32 } }).planLoad rg fpa index h p ch, h)

/-! ## Commands (spec/15_region_scheduler.md R333, R334, R343) -/

/-- Complete the command in progress, if it is this one. -/
def State.finish (s : State) (op status result : Nat) : State :=
  if s.sched.win.busy ∧ s.sched.win.op = op then
    { s with sched := { s.sched with win := { s.sched.win with busy := false, status := status, result := if op = 1 then result else s.sched.win.result } } }
  else s

/-- PLAN_SETUP (R343): the checks are made of a region in STATE 1 to 4. One that is released and runs is acted on only once it is held, and nothing
holds it here: the command waits, and the checks are made again then. The region's ease rises where the plan's links need it (R53, R384), and a plan
that needs a factor above 8 finds no channels (log entry 28). -/
def runPlanSetup (rg fpa : Nat) (s : State) : State :=
  let st := (s.rgn rg).d.state
  if 512 ≤ rg then s.finish 1 14 0
  else if 1 ≤ st ∧ st ≤ 4 then
    match s.planTry rg fpa 256 with
    | .inl c => s.finish 1 c 0
    | .inr (t, h) =>
      if 8 < t.loadK (t.rgn rg) then s.finish 1 9 0
      else if st = 2 then s.laterOnce (.planSetup rg fpa)
      else (t.modRgn rg (fun r => { r with d := { r.d with ease := t.easeAfter r } })).finish 1 0 h
  else s.finish 1 15 0

/-- What PLAN_SETUP reads of far memory: the plan's object and the op words that it names; nothing for a region that it does not check. -/
def State.planReads (s : State) (rg fpa : Nat) : List (Nat × Nat) :=
  let r := s.rgn rg
  if 512 ≤ rg ∨ r.d.state = 0 ∨ 4 < r.d.state then []
  else match s.planObject r.pl.image fpa with
    | none => [(fpa, 16)]
    | some ks => (fpa, 16 + 80 * ks.length) :: (List.range ks.length).map (fun k => (r.pl.image + s.fpaNum (fpa + 16 + 80 * k + 4) 4, 16 * s.fpaNum (fpa + 16 + 80 * k + 8) 4))

/-- Take a plan out of a region, whose L is that of the links still used (R30). -/
def State.dropPlan (s : State) (rg h : Nat) : State :=
  let s1 := s.modRgn rg (fun r => { r with plans := r.plans.filter (fun q => q.handle != h) })
  if (s.rgn rg).d.band = 3 then s1.modRgn rg (fun r => r.setL (s.lfabNow r)) else s1
/-- PLAN_FREE (R343): release a plan that is resident and neither armed nor running. -/
def runPlanFree (h : Nat) (s : State) : State :=
  match s.plansAll.find? (fun q => q.2.handle == h) with
  | none => s.finish 2 14 0
  | some (rg, p) =>
    if p.rel.isSome then s.finish 2 15 0
    else (s.dropPlan rg h).finish 2 0 0

/-! ## Host triggers and release -/

/-- Report a trigger that is dropped to the host (R274, R392). -/
def State.dropTrigger (s : State) (h : Nat) : State := s.msi 2 h

/-- HOST_TRIGGER (R274, R313): a handle written to a region's trigger window, registered at the stitch at which the segment root stamps it: the
present one, or the hold stitch of a held or saved region; a region that has no stitches drops it. A ctrig of the same stitch and handle raises SLIP, and the plan is not fired. -/
def runHostTrigger (rg h : Nat) (s : State) : State :=
  let r := s.rgn rg
  if r.d.state ≠ 2 ∧ r.d.state ≠ 3 ∧ r.d.state ≠ 4 then s.dropTrigger h
  else match r.plan h with
    | none => s.dropTrigger h
    | some p =>
      let t := r.clk.sc
      if p.rel.isNone && decide (p.fin ≤ t) then
        s.modRgn rg (fun r => { r with plans := r.plans.map (fun q => if q.handle = h then { q with rel := some (t + r.d.dr), fired := some (t, 0, 0, true) } else q) })
      else s.dropTrigger h

/-- PLAN_RELEASE (R275): at its release stitch every engine of an armed plan clears its FLAGS and starts to count. Tokens that a degenerate plan sent
at its latest firing still land (R296). -/
def runPlanRelease (rg h : Nat) (s : State) : State :=
  let r := s.rgn rg
  match r.plan h with
  | some p =>
    if p.rel = some r.clk.sc ∧ !p.run then
      s.modRgn rg (fun r => { r with plans := r.plans.map (fun q =>
        if q.handle = h then { q with run := true, ranks := q.ranks.map (fun k => { k with fl := 0, inbox := [], writes := [], void := [], bad := [] }) } else q) })
    else s
  | none => s

end Sys2Proof.Machine
end

