-- ==== Sys2Proof/Machine/Sched.lean ====
section
/-! DEFINITION. The region scheduler (spec/15_region_scheduler.md): launch rings and records, the schedule table, placement and pre-emption, the loading
and end of regions, unpick, commands and the standby. -/
namespace Sys2Proof.Machine

/-! ## The schedule table (R327 to R331) -/

def State.slot (s : State) (sid : Nat) : Slot := mgetD s.sched.slots sid {}
def State.modSched (s : State) (f : Sched → Sched) : State := { s with sched := f s.sched }
def State.setSlot (s : State) (sid : Nat) (x : Slot) : State := s.modSched (fun q => { q with slots := mset q.slots sid x })

def Slot.field (x : Slot) (k hi lo : Nat) : Nat := recField x.words k hi lo
def Slot.kind (x : Slot) : Nat := x.field 0 31 30
def Slot.part (x : Slot) : Nat := x.field 0 36 33
def Slot.wid (x : Slot) : Nat := x.field 0 15 8
def Slot.hgt (x : Slot) : Nat := x.field 0 23 16
def Slot.image (x : Slot) : Nat := x.field 1 41 0
def Slot.done (x : Slot) : Nat := x.field 4 41 0
def Slot.save (x : Slot) : Nat := x.field 5 41 0

/-- Write a completion word (R330), and send its interrupt message (R392). -/
def State.complete (s : State) (done sid status : Nat) : State :=
  match s.writeFpa done (toBytes 8 (2 ^ 63 + status * 2 ^ 48 + sid * 2 ^ 36)) 6 s.dieIdent with
  | some t => t.msi 1 sid
  | none => s

/-- Decrement the count of a slot (R331). -/
def State.decrement (s : State) (sid : Nat) : State :=
  let x := s.slot sid
  if x.count ≤ -4096 then s.send (.report 3 sid)
  else if x.state = 1 ∧ x.count = 1 then (s.setSlot sid { x with count := 0, state := 2, since := s.pcyc }).laterOnce .placement
  else s.setSlot sid { x with count := x.count - 1 }

/-- Free a slot; decrements that have come in stay in its count. -/
def State.freeSlot (s : State) (sid : Nat) : State :=
  (s.setSlot sid { count := (s.slot sid).count }).modSched (fun q => { q with hold := q.hold.filter (fun h => h.1 != sid) })

/-! ## Launch records (R328, R329) -/

/-- The logical dies of a partition (R316). -/
def State.inPart (s : State) (p k : Nat) : Bool := if k < 64 then (s.part p 2).getLsbD k else (s.part p 3).getLsbD (k - 64)
def State.partDies (s : State) (p : Nat) : Nat := ((List.range 96).filter (fun k => s.inPart p k)).length

/-- Are the reserved fields of a record zero, and the addresses aligned (R328)? -/
def recordClean (w : List W64) : Bool :=
  recField w 0 29 28 == 0 && recField w 0 7 0 == 0 && recField w 1 63 42 == 0 && recField w 2 63 32 == 0 && recField w 3 51 42 == 0 && recField w 4 63 42 == 0 &&
  recField w 5 63 42 == 0 && recField w 6 63 49 == 0 && recField w 7 63 33 == 0 && recField w 1 11 0 == 0 && recField w 3 2 0 == 0 && recField w 4 2 0 == 0
/-- Is the shape one of R28? -/
def shapeOk (kind npkg wid hgt : Nat) : Bool :=
  match kind with
  | 0 => npkg == 0 && decide (1 ≤ wid) && decide (wid ≤ 8) && decide (1 ≤ hgt) && decide (hgt ≤ 8)
  | 1 => npkg == 0 && wid % 8 == 0 && decide (8 ≤ wid) && decide (wid ≤ 96) && hgt % 8 == 0 && decide (8 ≤ hgt) && decide (hgt ≤ 64)
  | 2 => decide (1 ≤ npkg) && wid % 8 == 0 && decide (8 ≤ wid) && decide (wid ≤ 96) && hgt == 64
  | _ => false
/-- The dies that a shape takes on this package. -/
def shapeDies (kind wid hgt : Nat) : Nat := if kind = 0 then 1 else wid / 8 * (hgt / 8)

/-- The code with which a record of a ring is refused, if it is (R329, R332, R334). DESIGN CHOICE (log entry 56): where several reasons apply, the codes
are tried in the order 1, 2, 3, 1, 16; a DONE, DLIST or IMAGE that the partition does not own is code 1. -/
def State.recordCode (s : State) (ring : Nat) (w : List W64) : Option Nat :=
  let x : Slot := { words := w }
  let p := x.part
  let owned := fun a n => n == 0 || s.ownsAll p (fpaDie a) (fpaOfs a) n
  if !recordClean w || !shapeOk x.kind (x.field 0 27 24) x.wid x.hgt || x.field 0 39 37 != ring then some 1
  else if (s.slot (x.field 0 63 52)).state ≠ 0 then some 2
  else if !s.partOn p || decide (s.partDies p < shapeDies x.kind x.wid x.hgt) then some 3
  else if !owned x.done 8 || !owned (x.field 3 41 0) (2 * x.field 3 63 52) || !owned x.image (max 1024 (x.field 2 31 0)) then some 1
  else if x.save ≠ 0 ∧ (x.save % 2 ^ 21 ≠ 0 ∨ !owned x.save ({ wid := x.wid, hgt := x.hgt, npkg := if x.kind = 2 then x.field 0 27 24 + 1 else 1 } : Descr).saveLen) then some 16
  else none

/-- Accept or refuse one record. A refused record's completion word is written where it names one that the partition owns (R330). -/
def State.acceptRecord (s : State) (ring : Nat) (w : List W64) : State :=
  let x : Slot := { words := w }
  let sid := x.field 0 63 52
  match s.recordCode ring w with
  | some c => if x.done % 8 = 0 ∧ recField w 4 63 42 = 0 ∧ s.owns x.part (fpaDie x.done) (fpaOfs x.done) then s.complete x.done sid c else s
  | none =>
    let n : Int := (s.slot sid).count + Int.ofNat (x.field 0 51 40)
    let st := if n = 0 then 2 else 1
    let t := s.setSlot sid { state := st, count := n, words := w, prio := min (x.field 0 39 37) (bitsOf (s.part x.part 4).toNat 23 16), since := s.pcyc }
    if n = 0 then t.laterOnce .placement else t

/-! ## Launch rings (R332) -/

def Ring.on (q : Ring) : Bool := decide (4 ≤ q.log) && decide (q.log ≤ 16)
/-- The outstanding records of a ring whose PROD would be `p`. -/
def Ring.due (q : Ring) (p : Nat) : Nat := (p % 2 ^ 32 + 2 ^ 32 - q.cons) % 2 ^ 32
def State.ring (s : State) (k : Nat) : Ring := s.sched.rings.get (Fin.ofNat 8 k)
def State.setRing (s : State) (k : Nat) (q : Ring) : State := s.modSched (fun x => { x with rings := x.rings.set (k % 8) q (Nat.mod_lt _ (by decide)) })

/-- A write of a ring's PROD is accepted unless the ring would hold more than 2^LOG records. -/
def State.prodOk (s : State) (k p : Nat) : Bool := let q := s.ring k; decide (q.due p ≤ (if q.on then 2 ^ q.log else 0))
/-- LAUNCH_RING_PRODUCE. -/
def runProduce (k p : Nat) (s : State) : State :=
  if s.prodOk k p then (s.setRing k { s.ring k with prod := p % 2 ^ 32 }).laterOnce .launchRecordAccept else s

/-- The highest ring that holds a record. -/
def State.ringDue (s : State) : Option Nat := [7, 6, 5, 4, 3, 2, 1, 0].find? (fun k => (s.ring k).on && (s.ring k).due (s.ring k).prod != 0)
/-- Is the package ready for launches: both service processors have booted, or one has and the other has left service, and the vote on the maps has
had a majority (spec/18_links_host_boot.md R395)? -/
def Boot.ready (b : Boot) : Bool := !b.barred && ((b.west.boot == 8 && (b.east.boot == 8 || b.east.boot == 1)) || (b.west.boot == 1 && b.east.boot == 8))
/-- LAUNCH_RECORD_ACCEPT: the next record is accepted or refused, and CONS advances. -/
def runAccept (s : State) : State :=
  match (if s.boot.ready then s.ringDue else none) with
  | none => s
  | some k =>
    let q := s.ring k
    let a := q.base + 64 * (q.cons % 2 ^ q.log)
    let w := (List.range 8).map (fun i => s.fpaWord (a + 8 * i))
    let t := (s.acceptRecord k w).setRing k { q with cons := (q.cons + 1) % 2 ^ 32 }
    if t.ringDue.isSome then t.laterOnce .launchRecordAccept else t

/-- The launch record that LAUNCH_RECORD_ACCEPT reads. -/
def State.recordReads (s : State) : List (Nat × Nat) :=
  match (if s.boot.ready then s.ringDue else none) with
  | none => []
  | some k => let q := s.ring k; [(q.base + 64 * (q.cons % 2 ^ q.log), 64)]

/-! ## Routes (R339, R341 step 3; spec/13_programs_region.md R303) -/

/-- The router outputs that a route uses on this package, each with the stitches after the send. -/
def Route.outs (e : Route) (d : Descr) : List (Nat × Nat) :=
  ((e.legs d).foldl (fun (acc : Nat × List (Nat × Nat)) (q : Leg) =>
    (acc.1 + (if Leg.fab q then 48 + d.lfab else if Leg.die q then 24 else 2), acc.2 ++ (q.uses d.pkg).map (fun n => (n, acc.1)))) (2, [])).2
/-- A route entry of an image (R339) with its number; none where a field is out of range. -/
def State.imgRoute (s : State) (d : Descr) (a : Nat) : Option (Nat × Route) :=
  let num := fun o n => s.fpaNum (a + o) n
  let e : Route := { sx := num 2 1, sy := num 3 1, dx := num 4 1, dy := num 5 1, order := num 6 1, ch := num 7 1, width := num 8 1, sp := num 9 1, dp := num 10 1, h := 0, d := 0, f := 0 }
  if num 0 2 < 1024 ∧ e.sx < d.wid ∧ e.sy < d.hgt ∧ e.dx < d.wid ∧ e.dy < d.hgt ∧ e.order < 2 ∧ e.ch + e.width ≤ 192 ∧ num 11 5 = 0 ∧ e.sp < d.npkg ∧ e.dp < d.npkg then
    some (num 0 2, e.measured d)
  else none

/-- Do two routes share a channel of a router output in one stitch of the route table (R334 code 5; spec/06_encoding.md R168, log entry 31)? -/
def routesClash (d : Descr) (a b : Nat × Route) : Bool :=
  decide (a.2.ch < b.2.ch + b.2.width) && decide (b.2.ch < a.2.ch + a.2.width) && (a.2.outs d).any (fun o => (b.2.outs d).contains o)
/-- Is any pair of a list related? -/
def anyPair {α : Type} (f : α → α → Bool) : List α → Bool | [] => false | x :: l => l.any (f x) || anyPair f l
/-- The route entries of an image in its order, or none where one is malformed. -/
def State.imgRoutes (s : State) (d : Descr) (img : Nat) (h : ImgHead) : Option (List (Nat × Route)) :=
  let l := (List.range h.nroute).map (fun i => s.imgRoute d (img + h.routes + 16 * i))
  let rs := l.filterMap id
  if rs.length ≠ l.length then none else some rs
/-- Does a route number come twice, or do two routes clash (R334 code 5)? -/
def routesBad (d : Descr) (rs : List (Nat × Route)) : Bool := anyPair (fun a b => a.1 == b.1 || routesClash d a b) rs

/-- The core column of a die in which a logical core column sits (spec/01_panel.md R18). -/
def Maps.coreCol (m : Maps) (x y : Nat) : Nat := m.phys (96 * y + x) / 2 ^ 7 % 16
/-- The physical router in core column `c` of row `y` of logical die column `u`, as PHYS of R315 packs its core. -/
def Maps.routerAt (m : Maps) (u y c : Nat) : Nat := y % 8 * 2 ^ 11 + c * 2 ^ 7 + m.phys (96 * y + 8 * u) % 2 ^ 7
/-- The bridges that a step across a seam between two logical columns passes, from west to east: one, or the two that drive the bypass tracks over a
darned column (spec/01_panel.md R19, R23). -/
def Maps.seamMh (m : Maps) (u v : Nat) : List Nat := ((List.range 12).filter (fun j => m.mhSeam j == some u)).map (fun j => engineId m (j + 12 * v))
/-- The places from one to another, the first among them and the last not. -/
def upTo (a b : Nat) : List Nat := (a :: axisSteps a b).dropLast
/-- The physical routers that a step leaves, each with the port by which it goes out (R303; spec/01_panel.md R18, R19, R23): that of the core left;
those of the retired and spare cores passed inside a die; the bridges of a crossing; and, the vertical step first, that of the core beside the goal
where the rows of a vertical hop are shifted differently. -/
def Leg.passes (m : Maps) (l : Leg) : List (Nat × Nat) :=
  match l with
  | (x, y0, o) =>
    let y := y0 % 64
    let x1 := if o = 1 then x + 1 else if o = 3 then x - 1 else x
    let y1 := (if o = 0 then y + 1 else if o = 2 then y - 1 else y) % 64
    let a := m.coreCol x y
    let b := m.coreCol x1 y1
    let row := fun (u : Nat) (cs : List Nat) => cs.map (fun c => (m.routerAt u y c, o))
    if o = 1 ∨ o = 3 then
      if Leg.die l then
        let bs := (m.seamMh (min x x1 / 8) (y / 8)).map (fun i => (i, o))
        if o = 1 then row (x / 8) (upTo a 8 ++ [8]) ++ bs ++ row (x1 / 8) (upTo 0 b) else row (x / 8) (upTo a 0 ++ [0]) ++ bs.reverse ++ row (x1 / 8) (upTo 8 b)
      else row (x / 8) (upTo a b)
    else
      (m.routerAt (x / 8) y a, o) :: (if Leg.fab l then [] else
        (if Leg.die l then [(engineId m (96 + x / 8 + 12 * (min y y1 / 8)), o)] else []) ++ (if a = b then [] else [(m.routerAt (x / 8) y1 a, if a < b then 1 else 3)]))
/-- The entries of a route's physical path on this package (R303), each router by the PHYS of its core or the id of its bridge (R306); the routers of
a die that a remote spare serves are not on this package. DESIGN CHOICE (log entry 54): a step that starts in such a die has no entry here, and one that
ends there keeps those of the bridge. A hop inside a die that is one physical hop is padded by one stitch. DESIGN CHOICE (log entry
31): the entry at which a die crossing begins adds none, for R23 pads the crossing as a whole and gives no amount for an entry. -/
def Route.hops (e : Route) (m : Maps) (d : Descr) : List RouteHop :=
  let hop := fun router i o pad => ({ router := router, inward := i, outward := o, ch := e.ch, width := e.width, pad := pad } : RouteHop)
  let go := (e.legs d).foldl (fun (acc : Nat × List RouteHop) (q : Leg) =>
    if q.2.1 / 64 ≠ d.pkg then ((q.2.2 + 2) % 4, acc.2)
    else
      let ps := q.passes m
      let pad := if !Leg.die q && ps.length == 1 then 1 else 0
      let out := ps.foldl (fun (a : Nat × List RouteHop) r => ((r.2 + 2) % 4, a.2 ++ [hop r.1 a.1 r.2 (if a.2.isEmpty then pad else 0)])) (acc.1, [])
      (out.1, acc.2 ++ (if (mget m.remote (q.1 / 8 + 12 * (q.2.1 % 64 / 8))).isSome then [] else out.2))) (4, [])
  go.2 ++ (if e.dp = d.pkg ∧ (mget m.remote ((d.x0 + e.dx) / 8 + 12 * ((d.y0 + e.dy) / 8))).isNone then [hop (m.phys (96 * (d.y0 + e.dy) + (d.x0 + e.dx))) go.1 4 0] else [])
/-- The service processors write the physical entries of a region's routes, at its load and after a shift of a row or column (R303). -/
def State.writeRoutes (s : State) (rg : Nat) : State :=
  s.modRgn rg (fun r => { r with routes := r.routes.map (fun q => (q.1, { q.2 with phys := q.2.hops s.maps r.d })) })

/-- What the routes and plan links of an image use on this package, of a region with this descriptor (R30, R384). -/
def State.imgUses (s : State) (d : Descr) (img : Nat) (h : ImgHead) : List Nat :=
  ((s.imgRoutes d img h).getD []).flatMap (fun q => q.2.uses d) ++
  (List.range h.nplan).flatMap (fun i =>
    match s.planObject img (img + s.fpaNum (img + h.plans + 16 * i) 8) with
    | none => []
    | some ks =>
      let p : PlanView := { d := d, ranks := ks, engs := ks.map (fun k => (k.engine d).getD 0) }
      p.uses)

/-! ## Placement (R335 to R338) -/

/-- The arithmetic-clock cycles of 50 ms at 1.1 GHz (R335; spec/01_panel.md R26). -/
def ageCycles : Nat := 55000000
/-- The effective priority of a schedule. -/
def State.ep (s : State) (x : Slot) : Nat := min 7 (x.prio + (s.pcyc - x.since) / ageCycles)
/-- The Runnable and Saved schedules in the order of R335; one whose saved region is being unpicked is no more to be placed. -/
def State.order (s : State) : List Nat :=
  let l := s.sched.slots.filter (fun q => q.2.state == 2 || (q.2.state == 4 && (s.rgn q.2.rg).saved.isSome))
  (l.foldl (fun l q => insertBy (fun (p : Nat × Slot) => ((7 - s.ep p.2) * 2 ^ 200) + p.2.since * 4096 + p.1) q l) []).map Prod.fst

/-- Does a region occupy its cores: all but a saved one that is not being restored? -/
def State.occupies (s : State) (r : Region) : Bool := r.d.state != 0 && (r.d.state != 4 || (s.slot r.pl.sid).state == 3)
/-- Is a core free of every region but those named? -/
def State.coreFree (s : State) (skip : List Nat) (c : Nat) : Bool := s.regions.all (fun r => skip.contains r.1 || !s.occupies r.2 || !r.2.d.holds c)
/-- Does a saved region keep its preserve area or journal on a die (R338)? -/
def State.savedArea (s : State) (skip : List Nat) (k : Nat) : Bool :=
  s.regions.any (fun r => !skip.contains r.1 && r.2.d.state == 4 && (r.2.d.prsvBanks ++ r.2.d.jrnBanks).any (fun a => nearU a + 12 * nearV a == k))
/-- The grant of an image at an origin, by logical die. -/
def grantAt (g : Map W64) (x y : Nat) : Map W64 := g.map (fun q => (x / 8 + q.1 % 12 + 12 * (y / 8 + q.1 / 12), q.2))
/-- Is every bank of a grant free (R122, R336)? -/
def State.banksFree (s : State) (skip : List Nat) (g : Map W64) : Bool :=
  s.regions.all (fun r => skip.contains r.1 || r.2.d.state == 0 || g.all (fun q => mgetD r.2.d.grant q.1 0 &&& q.2 == 0))

/-- The origins of a schedule's scan (R336). -/
def Slot.origins (x : Slot) : List (Nat × Nat) :=
  if x.kind = 0 then (List.range 96).flatMap (fun k => (List.range (9 - x.hgt)).flatMap (fun cy => (List.range (9 - x.wid)).map (fun cx => (8 * (k % 12) + cx, 8 * (k / 12) + cy))))
  else if x.kind = 2 then (List.range (13 - x.wid / 8)).map (fun u => (8 * u, 0))
  else (List.range (9 - x.hgt / 8)).flatMap (fun v => (List.range (13 - x.wid / 8)).map (fun u => (8 * u, 8 * v)))

/-- The band of a shape (spec/02_stitch_time.md R29). -/
def bandOf (kind wid hgt : Nat) : Nat := if kind = 2 then 3 else if kind = 0 ∨ (wid = 8 ∧ hgt = 8) then 0 else if wid ≤ 32 ∧ hgt ≤ 32 then 1 else 2
/-- WDOG and PLIMIT as the descriptor holds them (R312, R328). -/
def wdogOf (x : Nat) : Nat := if x = 0 then 2 ^ 32 else min (2 ^ 48) (max (2 ^ 20) x)
def plimitOf (x : Nat) : Nat := if x = 0 then 2 ^ 20 else min (2 ^ 32) (max (2 ^ 10) x)

/-- The descriptor of a schedule placed at an origin (R312), `uses` being what its routes and plans use there. -/
def State.descrOf (s : State) (x : Slot) (g : Map W64) (uses : List Nat) (o : Nat × Nat) : Descr :=
  let d : Descr :=
    { state := 1, part := x.part, band := bandOf x.kind x.wid x.hgt, auto := (x.words.getD 0 0).getLsbD 32, x0 := o.1, y0 := o.2, wid := x.wid, hgt := x.hgt
      npkg := if x.kind = 2 then x.field 0 27 24 + 1 else 1, lfab := s.lfabOf uses, wdog := wdogOf (x.field 6 48 0), plimit := plimitOf (x.field 7 32 0)
      save := x.save, grant := grantAt g o.1 o.2 }
  { d with ease := min 7 (s.repairK { d := d } - 1) }
/-- The descriptor of a schedule whose image is in far memory. -/
def State.descrAt (s : State) (x : Slot) (g : Map W64) (o : Nat × Nat) : Descr :=
  s.descrOf x g (if x.kind = 2 then s.imgUses (s.descrOf x g [] o) x.image (s.imgHead x.image) else []) o

/-- May a multi-package part use the north ports of its columns: links up, cabled as R382 asks, all to one package, which is part 1 (R385), of the same
clock domain (R380), of the partition's key set, and no longer than R30 allows? -/
def State.portsOk (s : State) (x : Slot) (x0 : Nat) : Bool :=
  (List.range (x.wid / 8)).all (fun i =>
    let p := mgetD s.ports (12 + x0 / 8 + i) {}
    p.cabled && s.portCarries x.part (12 + x0 / 8 + i) && (Config.partner (s.hPhys (12 + x0 / 8 + i))).1 == (Config.partner (s.hPhys (12 + x0 / 8))).1)

/-- The ease factor that a schedule's routes would need at an origin: one that needs more than 8 is not placed there (R53). -/
def State.originK (s : State) (x : Slot) (g : Map W64) (o : Nat × Nat) : Nat :=
  let d := s.descrOf x g [] o
  s.loadK { d := d, routes := (List.range ((s.imgRoutes d x.image (s.imgHead x.image)).getD []).length).zip (((s.imgRoutes d x.image (s.imgHead x.image)).getD []).map Prod.snd) }
/-- Is a die held for another schedule (R344)? -/
def State.heldFor (s : State) (sid k : Nat) : Bool :=
  s.sched.hold.any (fun h => h.1 != sid && (rectDies h.2.1 h.2.2 (s.slot h.1).wid (s.slot h.1).hgt).contains k)
/-- Does a schedule fit at an origin, the regions named taken away (R336, R338)? A die that a remote spare serves must be reached by a port of the
partition's key set (R387). -/
def State.fitsAt (s : State) (sid : Nat) (x : Slot) (g : Map W64) (skip : List Nat) (o : Nat × Nat) : Bool :=
  let dies := rectDies o.1 o.2 x.wid x.hgt
  dies.all (fun k => s.inPart x.part k && !s.maps.excluded.contains k && !s.heldFor sid k && (mget s.maps.remote k).all (fun q => s.remoteOk x.part q.1) &&
    (x.kind == 0 || x.state == 4 || !s.savedArea skip k)) &&
  (List.range (x.wid * x.hgt)).all (fun i => s.coreFree skip (96 * (o.2 + i / x.wid) + o.1 + i % x.wid)) &&
  (x.state == 4 || (s.banksFree skip (grantAt g o.1 o.2) && decide (s.originK x g o ≤ 8))) && (x.kind != 2 || s.portsOk x o.1)

/-- The lowest free region number. -/
def State.freeNumber (s : State) : Option Nat := (List.range 512).find? (fun n => (s.rgn n).d.state == 0)

/-- The cores of a partition's placed and saved regions, 64 to a die share (R337). -/
def State.partCores (s : State) (p : Nat) : Nat := s.regions.foldl (fun n r => if r.2.d.state != 0 && r.2.d.part == p then n + r.2.d.ncore else n) 0
/-- Does its quota refuse a partition a new placement (R337)? -/
def State.quotaFull (s : State) (p : Nat) : Bool :=
  let q := bitsOf (s.part p 4).toNat 15 0
  q != 0xffff && s.sched.slots.any (fun x => x.2.state == 2 && x.2.part != p) && decide (64 * ceilDiv (96 * q) 65536 ≤ s.partCores p)

/-- Take a schedule's place at an origin: a Runnable one under the lowest free number, to be loaded; a Saved one under its own, to be restored. -/
def State.placeAt (s : State) (sid : Nat) (x : Slot) (g : Map W64) (o : Nat × Nat) : State :=
  let cut := s.modSched (fun q => { q with hold := q.hold.filter (fun h => h.1 != sid) })
  if x.state = 4 then (cut.setSlot sid { x with state := 3 }).laterOnce (.restore x.rg)
  else match s.freeNumber with
    | none => s
    | some n =>
      (((cut.setSlot sid { x with state := 3, rg := n }).setRgn n { d := s.descrAt x g o, pl := { sid := sid, image := x.image } }).tellParts (s.descrAt x g o) 11 n).laterOnce
        (.regionLoad n)

/-- The grant that a schedule asks for. -/
def State.grantOf (s : State) (x : Slot) : Map W64 := if x.state = 4 then [] else s.imgGrant x.image
/-- The origins at which a schedule may be placed. -/
def State.originsOf (s : State) (x : Slot) : List (Nat × Nat) := if x.state = 4 then [((s.rgn x.rg).d.x0, (s.rgn x.rg).d.y0)] else x.origins

/-- May a region be pre-empted for a schedule of effective priority `ep` (R344)? -/
def State.yields (s : State) (ep : Nat) (r : Region) : Bool :=
  (r.d.state == 2 || r.d.state == 3) && decide ((s.slot r.pl.sid).prio < ep) && r.d.save != 0 && decide (2 ^ 24 ≤ r.clk.sc - r.pl.since)
/-- The regions that occupy a core of a rectangle. -/
def State.inRect (s : State) (x y w h : Nat) : List Nat :=
  (s.regions.filter (fun r => s.occupies r.2 && decide (r.2.d.x0 < x + w) && decide (x < r.2.d.x0 + r.2.d.wid) && decide (r.2.d.y0 < y + h) &&
    decide (y < r.2.d.y0 + r.2.d.hgt))).map Prod.fst
/-- The placed regions that stand in the way of a schedule at an origin: on its cores, or with banks of its grant (R122, R336). -/
def State.inWay (s : State) (x : Slot) (g : Map W64) (o : Nat × Nat) : List Nat :=
  let on := s.inRect o.1 o.2 x.wid x.hgt
  (s.regions.filter (fun r => on.contains r.1 || (s.occupies r.2 && x.state != 4 && (grantAt g o.1 o.2).any (fun q => mgetD r.2.d.grant q.1 0 &&& q.2 != 0)))).map Prod.fst
/-- Pre-emption for a schedule that does not fit: the first origin at which it would fit without regions that yield is held for it until it is placed,
and each of them gets a request (R344). An origin once held is chosen anew only where the schedule could no longer fit there. -/
def State.makeRoom (s : State) (sid : Nat) (x : Slot) (g : Map W64) : State :=
  let fits := fun o => s.fitsAt sid x g (s.inWay x g o) o
  let held := ((s.sched.hold.find? (fun h => h.1 == sid)).map Prod.snd).filter fits
  match held.or ((s.originsOf x).find? (fun o =>
      let v := s.inWay x g o
      !v.isEmpty && v.all (fun n => s.yields (s.ep x) (s.rgn n)) && fits o)) with
  | none => s
  | some o =>
    let t := s.modSched (fun q => { q with hold := q.hold.filter (fun h => h.1 != sid) ++ [(sid, o)] })
    ((s.inWay x g o).filter (fun n => s.yields (s.ep x) (s.rgn n))).foldl (fun t n => runPreempt n t) t

/-- Ask the schedulers of the other packages, whose answer is a free value (log entry 30), for the parts of a multi-package record, at one origin after
another in the order of the scan: the first at which every part can be placed (spec/18_links_host_boot.md R385). -/
def State.askParts (s : State) : List (Nat × Nat) → State × Option (Nat × Nat)
  | [] => (s, none)
  | o :: l => let (n, t) := s.fresh; if Config.partsFit n then (t, some o) else t.askParts l
/-- Try to place one schedule; `first` says that it is the first of the order. A multi-package record stays Runnable where no origin has room for its
parts on every package (R385). -/
def State.placeOne (s : State) (sid : Nat) (first : Bool) : State :=
  let x := s.slot sid
  let g := s.grantOf x
  if x.state = 4 ∧ (rectDies (s.rgn x.rg).d.x0 (s.rgn x.rg).d.y0 x.wid x.hgt).any (fun k => s.maps.excluded.contains k) then s.unpick x.rg 5
  else if x.state = 2 ∧ (s.quotaFull x.part ∨ s.freeNumber = none) then s
  else match (s.originsOf x).filter (s.fitsAt sid x g []) with
    | [] => if first then s.makeRoom sid x g else s
    | o :: os =>
      if x.kind = 2 ∧ x.state = 2 then (match s.askParts (o :: os) with | (t, some p) => t.placeAt sid x g p | (t, none) => t)
      else s.placeAt sid x g o

/-- PLACEMENT: the schedules of the order, each placed where it fits (R335). -/
def runPlacement (s : State) : State :=
  let l := s.order
  l.foldl (fun t sid => t.placeOne sid (l.head? == some sid)) s

/-- The images of the Runnable schedules, whose headers and tables PLACEMENT reads. -/
def State.placeReads (s : State) : List (Nat × Nat) :=
  (s.order.map s.slot).filterMap (fun x => if x.state = 2 then some (x.image, max 1024 (x.field 2 31 0)) else none)

/-! ## Loading (R341) -/

/-- Is an image well formed for its record: magic, version, shape, lengths, texts and segments (R334 code 4)? Of a KIND 2 record the tables of cores
and of the segment mask cover every part, whose region-relative y goes on from part to part (spec/18_links_host_boot.md R382). -/
def State.imageOk (s : State) (x : Slot) (h : ImgHead) : Bool :=
  let img := x.image
  let len := x.field 2 31 0
  let n := x.wid * x.hgt * (x.field 0 27 24 + 1)
  let inside := fun o k => decide (o + k ≤ len)
  h.magic == 0xb0960f01 && h.ver == 1 && h.zeros && h.kind == x.kind && h.npkg == x.field 0 27 24 && h.wid == x.wid && h.hgt == x.hgt && decide (h.pbanks ≤ 64) &&
  decide (h.nroute ≤ 1024) && decide (h.nplan ≤ 255) && inside 0 1024 && inside h.cores (32 * n) && inside h.routes (16 * h.nroute) && inside h.plans (16 * h.nplan) &&
  inside h.mask (ceilDiv n 8) && inside h.reloc (8 * h.nreloc) &&
  (List.range n).all (fun c =>
    let e := s.imgCore img h.cores c
    e.zero && decide (e.tlen ≤ 2 ^ 17) && inside e.text e.tlen && inside e.td 1024 &&
      (s.imgSegs img e.nseg e.seg).all (fun g => decide (g.1 + g.2.1 ≤ scrEnd) && inside g.2.2 g.2.1)) &&
  (s.imgRoutes (s.descrOf x [] [] (0, 0)) img h).isSome && (List.range h.nplan).all (s.planEntryOk img len h) && (s.relocWords img h).all (fun w => bitsOf w 63 57 == 0) &&
  (s.imgRelocs img h).all (fun q => decide (q.1 < n) && decide (q.2.2.2 < h.nplan) && decide (q.2.2.1 + 4 ≤ (if q.2.1 then scrEnd else 2 ^ 17)))

/-- Is the grant of an image within its shape and its partition, with banks enough for the preserve area and the journal (R334 code 6; R341, R361)? -/
def State.grantOk (s : State) (x : Slot) (d : Descr) (h : ImgHead) : Bool :=
  let g := s.imgGrant x.image
  let dies := rectDies d.x0 d.y0 d.wid d.hgt
  let w := if x.kind = 0 then 1 else x.wid / 8
  let v := if x.kind = 0 then 1 else x.hgt / 8
  g.all (fun q => decide (q.1 % 12 < w) && decide (q.1 / 12 < v)) && d.grant.all (fun q => dies.contains q.1 && s.inPart x.part q.1) && decide (h.jcap ≤ 2 ^ 21) &&
  decide (h.pbanks + ceilDiv h.jcap (2 ^ 20) ≤ d.bankList.length)

/-- The state of a core at release (R91, R117, R341 step 5): what the image gives it, and zero. Reserved bits of descriptors and of LTINFO stay zero
(R9), bit 0 of ENTRY is ignored (R143), and cache entries written while the region loads stay (R322). -/
def State.loadCore (s : State) (rg c : Nat) (h : ImgHead) : State :=
  let r := s.rgn rg
  let id := r.d.coreAt c
  let e := s.imgCore r.pl.image h.cores c
  let scr := (s.imgSegs r.pl.image e.nseg e.seg).foldl (fun m g => Memory.writeN m g.1 ((s.readFpa (r.pl.image + g.2.2) g.2.1).getD [])) []
  let scr1 := (s.patches r r.pl.image h c true).foldl (fun m q => Memory.writeLE m q.1 4 q.2) scr
  let td : Vector (BitVec 256) 32 := Vector.ofFn (fun i => tdClean (BitVec.ofNat 256 (s.fpaNum (r.pl.image + e.td + 32 * i.val) 32)))
  let old := s.core id
  s.setCore id { frec := old.frec, ovf := old.ovf, tce := old.tce, rr := old.rr, imem := s.textOf rg c, scr := scr1, pc := e.entry / 2 * 2
                 sp := { ltinfo := ltClean e.lt, td := td } }

/-- A load that is refused: everything taken is freed, DONE is written with the code, and nothing is decremented. The fault records of an earlier
region on its cores stay (R357). -/
def State.loadFail (s : State) (rg code : Nat) : State :=
  let p := (s.rgn rg).pl
  let x := s.slot p.sid
  let t := ((s.rgn rg).d.coreIds.foldl (fun s id => s.modCore id Core.freed) s).setRgn rg {}
  ((t.complete x.done p.sid code).freeSlot p.sid).laterOnce .placement

/-- The plans of an image, set up in order (R341 step 4). -/
def State.loadPlans (s : State) (rg img : Nat) (h : ImgHead) : Nat ⊕ State :=
  (List.range h.nplan).foldl (fun acc i =>
    match acc with
    | .inl c => .inl c
    | .inr t =>
      match t.planTry rg (img + s.fpaNum (img + h.plans + 16 * i) 8) i with
        | .inl c => .inl (if c = 1 then 4 else c)
        | .inr (u, _) => .inr u) (.inr s)

/-- A load that needs an ease above 8, or a link that is not there any more, is not run: its schedule is Runnable again, to be placed elsewhere (R53). -/
def State.loadAgain (s : State) (rg : Nat) : State :=
  let p := (s.rgn rg).pl
  let t := ((s.rgn rg).d.coreIds.foldl (fun s id => s.modCore id Core.freed) s).setRgn rg {}
  (t.setSlot p.sid { s.slot p.sid with state := 2, rg := 0 }).laterOnce .placement

/-- Are the links that a region's routes and plans cross, and those to the remote spares of its dies, up, of its partition's key set and no longer than
R30 allows (R381, R387)? -/
def State.linksOk (s : State) (r : Region) : Bool :=
  (List.range 24).all (fun h => !r.usesPort h || s.portCarries r.d.part h) &&
    s.maps.remote.all (fun q => !r.d.onDie (q.1 % 12) (q.1 / 12) || s.remoteOk r.d.part q.2.1)

/-- REGION_LOAD (R341): a placed schedule is loaded in the rule's order, and its release cycle is sent to the segment root (R342, R385). Of the segment
mask only the bits of the region's cores count (R37); the copies of its tiles are zero (R237). DESIGN CHOICE (log entry 56): RC is the least value that
the rules allow. -/
def runLoad (rg : Nat) (s : State) : State :=
  let r := s.rgn rg
  if r.d.state ≠ 1 ∨ r.pl.relCyc ≠ 0 then s
  else
    let x := s.slot r.pl.sid
    let h := s.imgHead r.pl.image
    if !s.imageOk x h then s.loadFail rg 4
    else if !s.grantOk x r.d h then s.loadFail rg 6
    else match s.imgRoutes r.d r.pl.image h with
      | none => s.loadFail rg 4
      | some rs =>
        if routesBad r.d rs then s.loadFail rg 5
        else
          let d1 : Descr := { r.d with pbanks := h.pbanks, jcap := h.jcap, lfab := if r.d.band = 3 then s.lfabOf (s.imgUses r.d r.pl.image h) else r.d.lfab }
          let d2 : Descr := { d1 with parea := d1.prsvBanks.headD 0, jbase := d1.jrnBanks.headD 0 }
          let mask := ofBytes ((s.readFpa (r.pl.image + h.mask) (ceilDiv r.d.ncore 8)).getD []) % 2 ^ r.d.ncore
          let s1 := (s.setRgn rg { r with d := d2, routes := rs.foldl (fun m q => mset m q.1 q.2) [], seg := { mask := mask } }).writeRoutes rg
          match s1.loadPlans rg r.pl.image h with
          | .inl c => s.loadFail rg c
          | .inr s2 =>
            let k := s2.loadK (s2.rgn rg)
            if 8 < k ∨ !s2.linksOk (s2.rgn rg) then s.loadAgain rg
            else
              let s3 := ((List.range r.d.ncore).foldl (fun s c => s.loadCore rg c h) s2).zeroCopies d2 (fun _ _ => true)
              let cyc := s.pcyc + r.d.leadCycles
              ((s3.modRgn rg (fun r => { r with d := { r.d with ease := k - 1 }, pl := { r.pl with relCyc := cyc } })).tellParts d2 12 rg).atCycle cyc (.regionRelease rg)

/-- The image that REGION_LOAD reads. -/
def State.loadReads (s : State) (rg : Nat) : List (Nat × Nat) :=
  let r := s.rgn rg
  if r.d.state ≠ 1 ∨ r.pl.relCyc ≠ 0 then [] else [s.imageRun rg]

/-! ## End of a region (R349, R351) -/

/-- The SIDs of a schedule's DLIST. -/
def State.dependants (s : State) (x : Slot) : List Nat := (List.range (x.field 3 63 52)).map (fun i => s.fpaNum (x.field 3 41 0 + 2 * i) 2 % 4096)

/-- SCHEDULE_END (R351): every write of the ended region is visible; the region is freed, DONE is written, and then the dependants are decremented. -/
def runScheduleEnd (rg : Nat) (s : State) : State :=
  let r := s.rgn rg
  if r.d.state ≠ 5 then s
  else
    let x := s.slot r.pl.sid
    let s1 := (r.d.coreIds.foldl (fun s id => s.setCore id {}) s).setRgn rg {}
    let s2 := (s1.complete x.done r.pl.sid 0).freeSlot r.pl.sid
    ((s.dependants x).foldl State.decrement s2).laterOnce .placement

/-- The DLIST that SCHEDULE_END reads. -/
def State.endReads (s : State) (rg : Nat) : List (Nat × Nat) :=
  let r := s.rgn rg
  if r.d.state ≠ 5 then [] else let x := s.slot r.pl.sid; [(x.field 3 41 0, 2 * x.field 3 63 52)]

/-- The id of a physical core, as PHYS of R315 packs it (R306). -/
def coreId (pk : Nat) : Nat := 2 ^ 36 + pk % 16 * 2 ^ 32 + pk / 16 % 8 * 2 ^ 29 + pk / 128 % 16 * 2 ^ 25 + pk / 2048 * 2 ^ 22

/-- The units of the purge tree of a region, by id (spec/14_system_state.md R306): its cores but where it was saved, the routers of its dies, the
bridges of its dies and the H-dies. -/
def State.purgeUnits (s : State) (r : Region) : List Nat :=
  (if r.d.state = 4 then [] else r.d.coreIds.map (fun id => coreId (s.maps.phys id))) ++
  (rectDies r.d.x0 r.d.y0 r.d.wid r.d.hgt).map (fun k => 2 * 2 ^ 36 + s.maps.dieCol (k % 12) * 2 ^ 32 + k / 12 * 2 ^ 29) ++
  (rectDies r.d.x0 r.d.y0 r.d.wid r.d.hgt).map (engineId s.maps) ++ (List.range 24).map (fun h => hdieId (s.hPhys h))

/-- UNPICK_SWEEP_END (R349 step 3): the sweep has ended, and each unit whose step is done clears its bit of the purge tree. Which units take longer is
left open: a free value (log entry 8); those still set clear theirs by PURGE_COMPLETE. -/
def runSweepEnd (rg : Nat) (s : State) : State :=
  let r := s.rgn rg
  if r.dying ∧ r.pl.purge = 0 then
    let (n, s) := s.fresh
    ((s.setRgn rg { r with pl := { r.pl with purge := 1, purgeAt := s.pcyc, units := (s.purgeUnits r).filter (Config.unitLate n) } }).laterOnce (.purgeComplete rg)).atCycle
      (s.pcyc + 2 ^ 20) (.purgeTimeout rg)
  else s

/-- PURGE_COMPLETE (R349 step 6). A load that a takeover unpicked (R353), and a region that is placed again (R53), are
Runnable again, their waiting time kept. -/
def runPurge (rg : Nat) (s : State) : State :=
  let r := s.rgn rg
  if r.dying ∧ r.pl.purge ≠ 0 then
    let x := s.slot r.pl.sid
    let s1 := s.setRgn rg {}
    (if r.pl.reason = 0 ∨ r.pl.again then s1.setSlot r.pl.sid { x with state := 2, rg := 0 } else (s1.complete x.done r.pl.sid 0x20).freeSlot r.pl.sid).laterOnce .placement
  else s

/-- PURGE_TIMEOUT (R349): the tree has not read 0 within 2^20 cycles; the units still set are reported. -/
def runPurgeTimeout (rg : Nat) (s : State) : State :=
  let r := s.rgn rg
  if r.dying ∧ r.pl.purge = 1 ∧ r.pl.units ≠ [] ∧ r.pl.purgeAt + 2 ^ 20 ≤ s.pcyc then
    r.pl.units.foldl (fun s u => s.send (.report 10 u)) ((s.setRgn rg { r with pl := { r.pl with purge := 2 } }).send (.report 4 rg))
  else s

/-! ## Commands (R333, R334, R345) -/

/-- UNPICK, with the outcome of the command where one asked for it. -/
def runUnpick (rg reason : Nat) (s : State) : State :=
  let t := s.unpick rg reason
  if reason ≠ 1 then t else t.finish 3 (if 512 ≤ rg then 14 else if (s.rgn rg).d.state = 0 then 15 else 0) 0

/-- PREEMPT_COMMAND: a request to a region; code 15 where it is dropped. -/
def runPreemptCommand (rg : Nat) (s : State) : State :=
  let r := s.rgn rg
  if 512 ≤ rg then s.finish 4 14 0
  else if (r.d.state ≠ 2 ∧ r.d.state ≠ 3) ∨ r.d.save = 0 then s.finish 4 15 0
  else (runPreempt rg s).finish 4 0 0

/-- CANCEL: free a Waiting or Runnable slot and clear its count. DESIGN CHOICE (log entry 56): an origin held for the schedule (R344) is let go. -/
def runCancel (sid : Nat) (s : State) : State :=
  let x := s.slot sid
  if 4096 ≤ sid ∨ x.state = 0 then s.finish 5 14 0
  else if x.state = 1 ∨ x.state = 2 then ((s.setSlot sid {}).modSched (fun q => { q with hold := q.hold.filter (fun h => h.1 != sid) })).finish 5 0 0
  else s.finish 5 15 0

/-! ## The standby scheduler (R352, R353) -/

/-- Is the control die of the active scheduler in service; is the other? -/
def Sched.activeUp (q : Sched) : Bool := if q.east then q.eastUp else q.westUp
def Sched.standbyUp (q : Sched) : Bool := if q.east then q.westUp else q.eastUp

/-- HEARTBEAT: the active scheduler tells the standby that it is alive, and will again in 2^20 cycles. -/
def runHeartbeat (s : State) : State :=
  if s.sched.activeUp then (s.modSched (fun q => { q with beat := s.pcyc })).atCycle (s.pcyc + 2 ^ 20) .heartbeat else s

/-- The tack ports of a control die, from the routers next to it: router, and the direction of the port. -/
def controlPorts (east : Bool) : List (Nat × Nat) := (List.range 10).map (fun r => if east then (13 + 15 * r, 1) else (1 + 15 * r, 3))
def setDown (t : Map TackRouter) (p : Nat × Nat) : Map TackRouter := let q := mgetD t p.1 {}; mset t p.1 { q with down := q.down ||| BitVec.ofNat 20 (2 ^ p.2) }

/-- The action of a command of the window that still waits (R333). -/
def commandAction (i : Instr) : Bool :=
  match i with | .planSetup _ _ | .planFree _ | .preemptCommand _ | .cancel _ => true | .unpick _ n => n == 1 | _ => false

/-- SCHEDULER_TAKEOVER: the standby takes over after 2^24 cycles without a heartbeat, or when the active control die is lost. A
command in progress completes with code 17, and does not act any more. -/
def runTakeover (s : State) : State :=
  if s.sched.standbyUp && (!s.sched.activeUp || decide (s.sched.beat + 2 ^ 24 ≤ s.pcyc)) then
    let old := s.sched.east
    let s1 := { s with tack := (controlPorts old).foldl setDown s.tack }
    let s2 := s1.modSched (fun q => { q with
      east := !old, westUp := q.westUp && old, eastUp := q.eastUp && !old, beat := s.pcyc
      win := if q.win.busy then { q.win with busy := false, status := 17 } else q.win })
    let s2 := if s1.sched.win.busy then { s2 with inputs := s2.inputs.filter (fun p => !commandAction p.2) } else s2
    let s3 := (s2.regions.filter (fun r => r.2.d.state == 1)).foldl (fun t r => t.unpick r.1 0) s2
    ((s3.atCycle (s.pcyc + 2 ^ 20) .heartbeat).laterOnce .launchRecordAccept).laterOnce .placement
  else s

end Sys2Proof.Machine
end

