-- ==== Sys2Proof/Machine/Window.lean ====
section
/-! DEFINITION. The system window (spec/14_system_state.md R306, R307): the registers of region descriptors (R312), trigger windows (R313), cores
(R314, R315), partitions (R316), ownership maps (R317), launch rings and the command window (spec/15_region_scheduler.md R332, R333), and tack
routers (R310). A read of a write-only field gives zero and a reserved field reads zero (spec/00_scope.md R8, R9). -/
namespace Sys2Proof.Machine

/-! ## Reading -/

/-- CAUSES of a region (R312). -/
def Region.causeBits (r : Region) : Nat :=
  let has := fun k => if r.seg.causes.any (fun c => c.code == k) then 1 else 0
  has cXLATE + 2 * has cREBUILD + 4 * has cPREEMPT + 8 * has cDEBUG + (if r.seg.causes.any Cause.isFault then 16 else 0) +
    (if r.seg.held && !r.kept && !r.seg.causes.isEmpty && r.seg.causes.all Cause.resolved then 32 else 0)

/-- Word `k` of a region descriptor (R312). -/
def Region.word (r : Region) (k : Nat) : Nat :=
  let d := r.d
  match k with
  | 0 => d.state * 2 ^ 61 + d.part * 2 ^ 57 + d.band * 2 ^ 55 + d.ease * 2 ^ 52 + (if d.auto then 2 ^ 51 else 0)
  | 1 => d.x0 + d.y0 * 2 ^ 8 + d.wid * 2 ^ 16 + d.hgt * 2 ^ 24 + d.npkg * 2 ^ 32
  | 2 => d.wdogNew.getD d.wdog
  | 3 => d.plimNew.getD d.plimit
  | 4 => d.save
  | 5 => d.pbanks * 2 ^ 33 + d.parea
  | 6 => d.jbase
  | 7 => d.jcap
  | 8 => r.seg.holdSc
  | 9 => if r.seg.held then r.causeBits else 0
  | 10 => r.seg.toRel * 2 ^ 16 + r.seg.await
  | k => if k < 32 then 0 else (mgetD d.grant (k - 32) 0).toNat

/-- The physical core that a class 1 address selects, as PHYS packs it (R306, R315). -/
def swaPhys (swa : Nat) : Nat := bitsOf swa 24 22 * 2 ^ 11 + bitsOf swa 28 25 * 2 ^ 7 + bitsOf swa 31 29 * 2 ^ 4 + bitsOf swa 35 32
/-- Is a physical core retired (R18)? -/
def Maps.isRetired (m : Maps) (pk : Nat) : Bool := mget m.retired (64 * (pk % 16) + 8 * (pk / 2 ^ 4 % 8) + pk / 2 ^ 11) == some (pk / 2 ^ 7 % 16)

/-- CSTATE of a physical core (R314). -/
def State.cstate (s : State) (pk : Nat) : Nat :=
  let ret := if s.maps.isRetired pk then 2 ^ 59 else 0
  match s.onPhys pk with
  | none => 7 * 2 ^ 60 + ret
  | some id =>
    let c := s.core id
    let rg := (s.regionOf id).getD 0
    (if (s.regionOf id).isSome ∧ (s.rgn rg).seg.held then 2 ^ 63 else 0) + c.issue.code * 2 ^ 60 + ret + rg * 2 ^ 50 + (if c.ovf then 16 else 0) + c.frec.length

/-- The logical core that a class 1 address selects, or a core without state where none sits there. -/
def State.swaCore (s : State) (swa : Nat) : Core := match s.onPhys (swaPhys swa) with | some id => s.core id | none => {}

/-- A register of a core (R314); none where the offset is unassigned. -/
def State.coreReg (s : State) (swa o : Nat) : Option Nat :=
  if o = 0 then some (s.cstate (swaPhys swa))
  else if o = 8 ∨ o = 0x10 then some 0
  else if 0x40 ≤ o ∧ o < 0x140 then some (((s.swaCore swa).frec[(o - 0x40) / 64]?).elim 0 (fun f => (f.get (Fin.ofNat 8 ((o - 0x40) / 8))).toNat))
  else if 0x400 ≤ o ∧ o < 0x800 then
    let e := (mgetD (s.swaCore swa).tce ((o - 0x400) / 16) 0).toNat
    some (if o % 16 = 0 then e % 2 ^ 64 else e / 2 ^ 64)
  else none

/-- The logical H-die that a physical one holds. -/
def State.hLogical (s : State) (p : Nat) : Option Nat := (List.range 24).find? (fun h => s.hPhys h == p)

/-- A register of class 0 (R306); none where the offset is unassigned. -/
def State.tableReg (s : State) (o : Nat) : Option Nat :=
  if o < 0x80000 then (if o % 1024 < 1024 then some ((s.rgn (o / 1024)).word (o % 1024 / 8)) else none)
  else if 0x100000 ≤ o ∧ o < 0x100400 then some (s.part ((o - 0x100000) / 64) (o % 64 / 8)).toNat
  else if 0x200000 ≤ o ∧ o < 0x201000 then some 0
  else if 0x300000 ≤ o ∧ o < 0x300200 then
    let q := s.ring ((o - 0x300000) / 0x40)
    match o % 0x40 with | 0 => some q.base | 8 => some q.log | 0x10 => some q.prod | 0x18 => some q.cons | _ => none
  else
    let w := s.sched.win
    match o with
    | 0x301000 => some (if w.busy then 2 ^ 63 else 0)
    | 0x301008 => some w.status
    | 0x301010 => some w.result
    | 0x301018 => some (w.args.get 0).toNat
    | 0x301020 => some (w.args.get 1).toNat
    | 0x301028 => some (w.args.get 2).toNat
    | 0x301030 => some (w.args.get 3).toNat
    | 0x302000 => some (s.pcyc % 2 ^ 64)
    | _ => none

/-- A register of the window; none where the read is refused (R307). The formats of classes 2, 3, 6 and 7 are not given. -/
def State.winReg (s : State) (swa : Nat) : Option Nat :=
  match swa / 2 ^ 36 % 16 with
  | 0 => s.tableReg (swa % 2 ^ 36)
  | 1 => if bitsOf swa 35 32 ≤ 12 ∧ bitsOf swa 28 25 ≤ 8 then s.coreReg swa (swa % 2 ^ 22) else none
  | 4 =>
    let o := swa % 2 ^ 31
    if bitsOf swa 35 31 < 26 ∧ 0x1000 ≤ o ∧ o < 0x1078 then
      some (ofBytes ((List.range 8).map (fun i => mgetD s.hdies.own (128 * bitsOf swa 35 31 + (o - 0x1000) + i) 0)))
    else none
  | 5 =>
    let t := mgetD s.tack (bitsOf swa 35 32 + 15 * bitsOf swa 31 28) {}
    let o := swa % 2 ^ 28
    if 15 ≤ bitsOf swa 35 32 ∨ 10 ≤ bitsOf swa 31 28 then none
    else if o = 0 then some t.down.toNat
    else if 0x200 ≤ o ∧ o < 0x400 then some (mgetD t.detour ((o - 0x200) / 8) 0).toNat
    else none
  | _ => none

/-! ## Writing -/

/-- A write of CMD (R312): bit 2 acknowledges, then bit 0 thaws, and bit 1 sends a debug request. A thaw that is not allowed refuses the write: DESIGN
CHOICE (log entry 59), the acknowledge of the same write included. -/
def State.writeCmd (s : State) (rg w : Nat) : Option State :=
  let s1 := if w.testBit 2 then runAck rg s else s
  let s2 : Option State := if w.testBit 0 then (if (s1.rgn rg).canThaw ∧ (s1.rgn rg).d.state = 3 then some (runThaw rg s1) else none) else some s1
  s2.map (fun t => if w.testBit 1 then runDebug rg t else t)

/-- A write of word `k` of a region descriptor (R312). -/
def State.writeDescr (s : State) (rg k w : Nat) : Option State :=
  let r := s.rgn rg
  let held := r.d.state = 3 ∨ r.d.state = 4
  match k with
  | 0 => if held then some ((s.setRgn rg { r with d := { r.d with auto := w.testBit 51 } }).settle rg) else none
  | 2 => if held then some (s.setRgn rg { r with d := { r.d with wdogNew := some (min (2 ^ 48) (max (2 ^ 20) (w % 2 ^ 49))) } }) else none
  | 3 => if held then some (s.setRgn rg { r with d := { r.d with plimNew := some (min (2 ^ 32) (max (2 ^ 10) (w % 2 ^ 33))) } }) else none
  | 11 => s.writeCmd rg w
  | _ => none

/-- The fields of word `k` of a partition entry that hold a value (R316). -/
def partMask (k w : Nat) : Option Nat :=
  match k with
  | 0 => some (w % 2 ^ 6) | 1 => some (w % 2 ^ 42 / 2 ^ 12 * 2 ^ 12) | 2 => some w | 3 => some (w % 2 ^ 32) | 4 => some (w % 2 ^ 24) | 5 => some (w % 2 ^ 5)
  | _ => none
/-- A write of a partition entry: only ROOT may change while a region of the partition exists. -/
def State.writePart (s : State) (p k w : Nat) : Option State :=
  match partMask k w with
  | none => none
  | some x =>
    if k ≠ 1 ∧ s.regions.any (fun r => r.2.d.state != 0 && r.2.d.part == p) then none
    else some (s.modSched (fun q => { q with parts := mset q.parts (8 * p + k) (BitVec.ofNat 64 x) }))

/-- A write of a ring's register (R332). -/
def State.writeRing (s : State) (k o w : Nat) : Option State :=
  let q := s.ring k
  match o with
  | 0 => if q.prod = q.cons then some (s.setRing k { q with base := w % 2 ^ 42 / 64 * 64 }) else none
  | 8 => if q.prod = q.cons then some (s.setRing k { q with log := w % 32 }) else none
  | 0x10 => if s.prodOk k w then some (runProduce k w s) else none
  | _ => none

/-- A write of OP: the command starts, and its event is due (R333). An OP that names no command is malformed. -/
def State.writeOp (s : State) (op : Nat) : Option State :=
  let w := s.sched.win
  let a := fun k => (w.args.get k).toNat
  if w.busy then none
  else
    let s1 := s.modSched (fun q => { q with win := { q.win with busy := true, op := op } })
    some (match op with
      | 1 => s1.later (.planSetup (a 0) (a 1))
      | 2 => s1.later (.planFree (a 0))
      | 3 => s1.later (.unpick (a 0) 1)
      | 4 => s1.later (.preemptCommand (a 0))
      | 5 => s1.later (.cancel (a 0))
      | n => s1.finish n 1 0)

/-- A write of a register of class 0. -/
def State.writeTable (s : State) (o w : Nat) : Option State :=
  let arg := fun (k : Fin 4) => some (s.modSched (fun q => { q with win := { q.win with args := q.win.args.set k.val (BitVec.ofNat 64 w) } }))
  if o < 0x80000 then s.writeDescr (o / 1024) (o % 1024 / 8) w
  else if 0x100000 ≤ o ∧ o < 0x100400 then s.writePart ((o - 0x100000) / 64) (o % 64 / 8) w
  else if 0x200000 ≤ o ∧ o < 0x201000 then
    let rg := (o - 0x200000) / 8
    if ((s.rgn rg).plan (w % 2 ^ 32)).isSome ∧ (s.rgn rg).d.state ≠ 6 then some (runHostTrigger rg (w % 2 ^ 32) s) else none
  else if 0x300000 ≤ o ∧ o < 0x300200 then s.writeRing ((o - 0x300000) / 0x40) (o % 0x40) w
  else match o with
    | 0x301000 => s.writeOp (w % 256)
    | 0x301018 => arg 0
    | 0x301020 => arg 1
    | 0x301028 => arg 2
    | 0x301030 => arg 3
    | _ => none

/-- The bits of a leaf that are not reserved (R319): the others read zero and ignore what is written (spec/00_scope.md R9). -/
def leafBits : W64 := BitVec.ofNat 64 (2 ^ 64 - 2 ^ 41 + (2 ^ 37 - 2 ^ 16) + 3)
/-- A write of a core's register (R314). -/
def State.writeCore (s : State) (swa o : Nat) (w : W64) : Option State :=
  let pk := swaPhys swa
  match s.onPhys pk with
  | none => if o = 8 then some s else none
  | some id =>
    let rg := s.regionOf id
    let n := rg.getD 0
    let c := s.core id
    if o = 8 then some (tcInv pk (if w.getLsbD 63 then none else some (bitsOf w.toNat 51 16)) s)
    else if o = 0x10 then (if rg.isSome ∧ ((s.rgn n).sysreq id).isSome ∧ c.sysRec then some (runSysreply pk w s) else none)
    else if 0x40 ≤ o ∧ o < 0x140 then
      let k := (o - 0x40) / 64
      match c.frec[k]? with
      | some f =>
        if o % 64 = 48 ∧ recXlate f then
          let rel := (s.rgn n).d.relOf id
          let s1 := if w.getLsbD 1 then runRetry n rel k s else s
          some (if rg.isNone then s else if w.getLsbD 2 then runDecline n rel k s1 else s1)
        else none
      | none => none
    else if 0x400 ≤ o ∧ o < 0x800 then
      if rg.isSome ∧ ((s.rgn n).d.state = 1 ∨ (s.rgn n).d.state = 3) then
        let k := (o - 0x400) / 16
        let e := (mgetD c.tce k 0).toNat
        let x := if o % 16 = 0 then e / 2 ^ 64 * 2 ^ 64 + (w &&& 0x8000000fffffffff).toNat else (w &&& leafBits).toNat * 2 ^ 64 + e % 2 ^ 64
        some (s.setCore id { c with tce := mset c.tce k (BitVec.ofNat 128 x) })
      else none
    else none

/-- A write of one register of the window; none where it is refused (R307). `sp` says that a service processor writes: only one may write ownership
maps and tack routers (R306). The layout of a tack router's registers is the model's (log entry 32). -/
def State.winWrite (s : State) (sp : Bool) (swa : Nat) (w : W64) : Option State :=
  match swa / 2 ^ 36 % 16 with
  | 0 => s.writeTable (swa % 2 ^ 36) w.toNat
  | 1 => if bitsOf swa 35 32 ≤ 12 ∧ bitsOf swa 28 25 ≤ 8 then s.writeCore swa (swa % 2 ^ 22) w else none
  | 4 =>
    let o := swa % 2 ^ 31
    if sp ∧ bitsOf swa 35 31 < 26 ∧ 0x1000 ≤ o ∧ o < 0x1078 then
      some { s with hdies := { s.hdies with own := (List.range 8).foldl (fun m i =>
        mset m (128 * bitsOf swa 35 31 + (o - 0x1000) + i) (BitVec.ofNat 8 (w.toNat / 256 ^ i) &&& 0x1f)) s.hdies.own } }
    else none
  | 5 =>
    let k := bitsOf swa 35 32 + 15 * bitsOf swa 31 28
    let t := mgetD s.tack k {}
    let o := swa % 2 ^ 28
    if !sp || decide (15 ≤ bitsOf swa 35 32) || decide (10 ≤ bitsOf swa 31 28) then none
    else if o = 0 then some { s with tack := mset s.tack k { t with down := w.setWidth 20 } }
    else if 0x200 ≤ o ∧ o < 0x400 then some { s with tack := mset s.tack k { t with detour := mset t.detour ((o - 0x200) / 8) (w &&& 0x8000000000ffff03) } }
    else none
  | _ => none

/-- A window read of `n` registers: their values, or none where it is refused. -/
def State.winReads (s : State) (swa n : Nat) : Option (List W64) :=
  if swa % 8 ≠ 0 ∨ n = 0 ∨ 6 < n then none
  else
    let l := (List.range n).map (fun i => s.winReg (swa + 8 * i))
    if l.all Option.isSome then some (l.map (fun x => BitVec.ofNat 64 (x.getD 0))) else none
/-- Writes of consecutive registers, none of them made where one is refused. -/
def State.winWritesGo (s : State) (sp : Bool) : Nat → List W64 → Option State
  | _, [] => some s
  | swa, w :: ws => match s.winWrite sp swa w with | some t => t.winWritesGo sp (swa + 8) ws | none => none
def State.winWrites (s : State) (sp : Bool) (swa : Nat) (ws : List W64) : Option State :=
  if swa % 8 ≠ 0 ∨ ws = [] ∨ 6 < ws.length then none else s.winWritesGo sp swa ws

/-- Is one of the registers written the TCINV of a core? Its reply then waits for the invalidation (R324). -/
def State.writesTcinv (s : State) (swa n : Nat) : Bool :=
  swa / 2 ^ 36 % 16 == 1 && (List.range n).any (fun i => (swa + 8 * i) % 2 ^ 22 == 8) && (s.onPhys (swaPhys swa)).isSome

/-- REGISTER_WRITE: a service processor's write to the window, with its reply (R307, R309). With the rail off no service processor runs
(spec/18_links_host_boot.md R398). -/
def runRegisterWrite (swa : Nat) (ws : List W64) (s : State) : State :=
  if !s.boot.rail then s
  else match s.winWrites true swa ws with | some t => if s.writesTcinv swa ws.length then t.tcReplies else t.send (.reply 0 []) | none => s.send (.reply 1 [])

end Sys2Proof.Machine
end

