-- ==== Sys2Proof/Machine/Tack.lean ====
section
/-! DEFINITION. The tack plane (spec/14_system_state.md R308 to R311): packets, the forwarding of a router, delivery to a unit, and the accesses of
host harts and devices that travel over it (spec/18_links_host_boot.md R391, R393; spec/05_memory.md R139). A router is numbered by mesh column
plus 15 times mesh row. -/
namespace Sys2Proof.Machine

/-! ## Forwarding (R310, R311) -/

/-- The port on which a router forwards a header: 0 north, 1 east, 2 south, 3 west, 4 the local port that it names; none where it drops the packet. -/
def TackRouter.want (t : TackRouter) (col row : Nat) (h : W64) : Option Nat :=
  let dc := bitsOf h.toNat 63 60
  let dr := bitsOf h.toNat 59 56
  let nw := h.getLsbD 38
  let w := if dc < col then 3 else if col < dc then 1 else if row < dr then 0 else if dr < row then 2 else 4
  if w = 3 ∧ nw then none
  else if t.down.getLsbD (if w < 4 then w else 4 + bitsOf h.toNat 55 52) then
    match (List.range 64).find? (fun k =>
      let e := (mgetD t.detour k 0).toNat
      e.testBit 63 && decide (bitsOf e 23 20 ≤ dc) && decide (dc ≤ bitsOf e 19 16) && decide (bitsOf e 15 12 ≤ dr) && decide (dr ≤ bitsOf e 11 8)) with
    | none => none
    | some k => let p := bitsOf (mgetD t.detour k 0).toNat 1 0; if p = 3 ∧ nw then none else some p
  else some w

/-- The router on the other side of a port, if the mesh has one. -/
def tackNext (rt w : Nat) : Option Nat :=
  match w with
  | 0 => if rt / 15 < 9 then some (rt + 15) else none
  | 1 => if rt % 15 < 14 then some (rt + 1) else none
  | 2 => if 15 ≤ rt then some (rt - 15) else none
  | _ => if rt % 15 = 0 then none else some (rt - 1)

/-- A reply that has come to its requester: the host sees it, and a refusal is an event of R392. -/
def State.replied (s : State) (status : Nat) (data : List W64) : State :=
  let t := s.send (.reply status data)
  if status = 0 then t else t.msi 2 status

/-- Deliver a packet to the unit at a local port: a read or write of the window is made and answered, a reply ends its access (R307, R309). The reply
to a TCINV write is sent when its invalidation allows it (R324). The second flit of a read carries the number of registers in bits [47:40] (log
entry 33). -/
def State.tackDeliver (s : State) (rt : Nat) (p : List W64) : State :=
  let h := p.getD 0 0
  let a := (p.getD 1 0).toNat
  let swa := a % 2 ^ 40
  let unit := 4 + bitsOf h.toNat 55 52
  let here := placeOf (rt % 15) (rt / 15) (bitsOf h.toNat 55 52)
  let fromSp := bitsOf h.toNat 43 40 == 1 && (bitsOf h.toNat 51 48 == 0 || bitsOf h.toNat 51 48 == 14)
  if h.getLsbD 39 then s.replied (bitsOf h.toNat 23 16) (p.drop 1)
  else match bitsOf h.toNat 34 32 with
    | 0 =>
      match s.winReads swa (bitsOf a 47 40) with
      | some d => s.tackPut rt true unit (replyTo h here 0 d)
      | none => s.tackPut rt true unit (replyTo h here 1 [])
    | 1 =>
      match s.winWrites fromSp swa (p.drop 2) with
      | some t =>
        if s.writesTcinv swa (p.length - 2) then
          ({ t with tcWait := t.tcWait.dropLast ++ t.tcWait.getLast?.toList.map (fun (w : TcWait) => { w with reply := some (rt, h) }) } : State).tcReplies
        else t.tackPut rt true unit (replyTo h here 0 [])
      | none => s.tackPut rt true unit (replyTo h here 1 [])
    | 4 => s.send (.report 5 (bitsOf h.toNat 15 0))
    | _ => s

/-- The most flits that the answer to a packet takes: of a read, of a write, of one that is dropped (R309, R310). A reply has none. -/
def answerFlits (p : List W64) (dropped : Bool) : Nat :=
  let h := p.getD 0 0
  if h.getLsbD 39 then 0 else if dropped || bitsOf h.toNat 34 32 = 1 then 1
  else if bitsOf h.toNat 34 32 = 0 then (let n := bitsOf (p.getD 1 0).toNat 47 40; if n ≤ 6 then n + 1 else 1) else 0
/-- Has the input by which a unit's answers come in room for one (R311)? -/
def TackRouter.answers (t : TackRouter) (port n : Nat) : Bool := n == 0 || t.takes true port n
/-- The first packet of a virtual network that a router can move: its place among the packets held. Packets that came in by one port keep their
order. A unit takes a request once its answer has room (R311). -/
def State.tackPick (s : State) (rt : Nat) (vn : Bool) : Option Nat :=
  let t := mgetD s.tack rt {}
  (List.range t.bufs.length).find? (fun i =>
    match t.bufs[i]? with
    | none => false
    | some (v, port, p) =>
      v == vn && (t.bufs.take i).all (fun b => !(b.1 == vn && b.2.1 == port)) &&
        (match t.want (rt % 15) (rt / 15) (p.getD 0 0) with
         | some w => if w = 4 then t.answers (4 + bitsOf (p.getD 0 0).toNat 55 52) (answerFlits p false) else match tackNext rt w with
            | some n => (mgetD s.tack n {}).takes vn ((w + 2) % 4) p.length
            | none => t.answers 4 (answerFlits p true)
         | none => t.answers 4 (answerFlits p true)))

/-- TACK_PACKET: a router forwards, delivers or drops a packet of a virtual network; while no packet can move, it waits (R310, R311). -/
def runTack (rt : Nat) (vn : Bool) (s : State) : State :=
  let t := mgetD s.tack rt {}
  match s.tackPick rt vn with
  | none => if t.bufs.any (fun b => b.1 == vn) then s.laterOnce (.tackPacket rt vn) else s
  | some i =>
    match t.bufs[i]? with
    | none => s
    | some (_, _, p) =>
      let h := p.getD 0 0
      let t1 := { t with bufs := t.bufs.eraseIdx i }
      let s1 : State := { s with tack := mset s.tack rt t1 }
      let drop : State := if h.getLsbD 39 then s1 else s1.tackPut rt true 4 (replyTo h (placeOf (rt % 15) (rt / 15) 0) 2 [])
      let s2 : State := match t.want (rt % 15) (rt / 15) h with
        | none => drop
        | some w =>
          if w = 4 then s1.tackDeliver rt p
          else match tackNext rt w with
            | none => drop
            | some n => s1.tackPut n vn ((w + 2) % 4) ((if w = 3 then h else h ||| 0x4000000000) :: p.drop 1)
      if t1.bufs.any (fun b => b.1 == vn) then s2.laterOnce (.tackPacket rt vn) else s2

/-! ## Host harts and devices (R391, R393) -/

/-- The unit that a system-window address names, as mesh column, row and local port (R306, R308). DESIGN CHOICE (log entry 32): R308 gives a control
die ten routers and the numbers of their ports, and does not say which router carries its services, its service processor and its harts; it is that of
mesh row 0 here. -/
def State.swaUnit (s : State) (swa : Nat) : Nat × Nat × Nat :=
  let c := bitsOf swa 35 32
  let r := bitsOf swa 31 29
  match swa / 2 ^ 36 % 16 with
  | 1 | 2 => (c + 1, r + 1, 0)
  | 3 =>
    let b := swa.testBit 27
    if swa.testBit 28 then (c + 1, if b then r + 2 else r + 1, if b then 4 else 3) else (if b then c + 2 else c + 1, r + 1, if b then 2 else 1)
  | 4 => let p := bitsOf swa 35 31; if p < 13 then (p + 1, 0, 0) else (p - 12, 9, 0)
  | 5 => (c, bitsOf swa 31 28, 0)
  | 6 => let p := s.hPhys (bitsOf swa 35 31); if p < 13 then (p + 1, 0, 0) else (p - 12, 9, 0)
  | 7 => (if swa.testBit 35 then 14 else 0, 0, 1)
  | _ => (if s.sched.east then 14 else 0, 0, 0)

/-- Is a hart's control die in service, and have its harts been released (spec/18_links_host_boot.md R395 step 7)? -/
def State.hartUp (s : State) (hart : Nat) : Bool :=
  !s.boot.hostOut && (if hart / 16 % 2 = 1 then s.sched.eastUp && s.boot.east.boot == 8 else s.sched.westUp && s.boot.west.boot == 8)
/-- The identity of a hart as a writer: its control die and number (spec/05_memory.md R142). -/
def hartIdent (hart : Nat) : Nat := hart / 16 % 2 * 256 + hart % 16

/-- An access of a hart to the window: a packet to the unit concerned, unless its size or alignment is refused (R307, R309). While the input of its
router has raised *stop*, the hart waits (R311). DESIGN CHOICE (log entry 32): the harts sit at the router of mesh row 0, two to a cluster's port. -/
def State.hartWindow (s : State) (hart : Nat) (write : Bool) (swa size : Nat) (data : List Byte) : State :=
  if swa % 8 ≠ 0 ∨ size % 8 ≠ 0 ∨ size = 0 ∨ 48 < size then s.replied 1 []
  else
    let u := s.swaUnit swa
    let col := if hart / 16 % 2 = 1 then 14 else 0
    let src := placeOf col 0 (2 + hart % 16 / 2)
    let ws := if write then (List.range (size / 8)).map (fun i => BitVec.ofNat 64 (ofBytes ((data.drop (8 * i)).take 8))) else []
    let port := 4 + 2 + hart % 16 / 2
    if !(mgetD s.tack col {}).takes false port (2 + ws.length) then s.later (.hostAccess hart write (0x10000000000 + swa) size data)
    else s.tackPut col false port
      (packHead u.1 u.2.1 u.2.2 src false (2 + ws.length) (if write then 1 else 0) hart 0 :: BitVec.ofNat 64 (swa + size / 8 * 2 ^ 40) :: ws)

/-- Bytes as 64-bit words. -/
def wordsOf (bs : List Byte) : List W64 := (List.range (ceilDiv bs.length 8)).map (fun i => BitVec.ofNat 64 (ofBytes ((bs.drop (8 * i)).take 8)))

/-- An access to far or near memory by host physical address; none where no memory is there, or the access is undeliverable (R371, R401). -/
def State.memAccess (s : State) (write : Bool) (addr size ident : Nat) (data : List Byte) : Option (State × List W64) :=
  let bs := (List.range size).map (fun i => data.getD i 0)
  if 0x100000000000 ≤ addr ∧ addr + size ≤ 0x100000000000 + 2 ^ 42 ∧ fpaDie (addr - 0x100000000000 + size - 1) < 24 then
    let a := addr - 0x100000000000
    if write then (s.writeFpa a bs 6 ident).map (fun t => (t, [])) else (s.readFpa a size).map (fun l => (s.healSpan a size, wordsOf l))
  else if 0x20000000000 ≤ addr ∧ addr + size ≤ 0x20000000000 + 2 ^ 33 ∧ nearIn (addr - 0x20000000000) ∧ nearIn (addr - 0x20000000000 + size - 1) then
    let a := addr - 0x20000000000
    if write then some (s.nearOutside a bs 6 ident, [])
    else if (firstPoison s.nearP a size).isSome then none else some (s, wordsOf (Memory.readN s.near a size))
  else none

/-- Where the model lets system software program the hart and identity of each event of R392: doublewords of a control die's own space from 0x10000 on,
one for each event, with the identity in bits [31:0] and the hart in bits [39:32]. DESIGN CHOICE (log entry 5): the spec gives no address. -/
def imsicSlot (addr size : Nat) : Option Nat := if 0x10000 ≤ addr ∧ addr < 0x10030 ∧ addr % 8 = 0 ∧ size = 8 then some ((addr - 0x10000) / 8) else none
/-- HOST_ACCESS: an access of a host hart by host physical address. An address that the map does not give raises an access fault, which is a refused
reply here; PCIe space and the control die's own devices are outside the machine, and an access to them is only reported. -/
def runHostAccess (hart : Nat) (write : Bool) (addr size : Nat) (data : List Byte) (s : State) : State :=
  if !s.hartUp hart || size == 0 then s
  else if 0x10000000000 ≤ addr ∧ addr + size ≤ 0x10000000000 + 2 ^ 40 then s.hartWindow hart write (addr - 0x10000000000) size data
  else if (imsicSlot addr size).isSome ∧ write then
    { s with imsic := mset s.imsic ((imsicSlot addr size).getD 0) (ofBytes ((data.drop 4).take 1), ofBytes (data.take 4)) }
  else if addr < 0x10000000000 ∨ (0x80000000000 ≤ addr ∧ addr < 0xc0000000000) then s.send (.report 6 addr)
  else match s.memAccess write addr size (hartIdent hart) data with
    | some (t, d) => t.replied 0 d
    | none => s.replied 2 []

/-- DMA_WRITE: a device's write to far or near memory, as hart 0xFF of its control die, which must be in service (R393, R398). The IOMMU translates its
address or refuses it, by tables that the spec does not give: a free value (log entry 5). -/
def runDma (die : Side) (addr : Nat) (data : List Byte) (s : State) : State :=
  if !s.boot.rail || !(if die = .east then s.sched.eastUp else s.sched.westUp) then s
  else
    let (n, s1) := s.fresh
    match (Config.iommu n addr).bind (fun a => s1.memAccess true a data.length ((if die = .east then 256 else 0) + 0xff) data) with
    | some (t, _) => t
    | none => s1.send (.report 7 addr)

end Sys2Proof.Machine
end

