-- ==== Sys2Proof/Machine/Recovery.lean ====
section
/-! DEFINITION. Repair (spec/16_faults_recovery.md R366 to R374, R402; spec/01_panel.md R18 to R22; spec/17_program_recovery.md R377, R378): verdicts and
votes, and the rows of the recovery ladder. A repair that needs regions held asks for a DEBUG hold of them and waits until they are held (R25). -/
namespace Sys2Proof.Machine

/-! ## Holds by the service processors (R368) -/

/-- A DEBUG request of the service processors; it is marked, so that they resolve no request of another. -/
def State.spHold (s : State) (rg : Nat) : State :=
  let r := s.rgn rg
  if (r.d.state = 2 ∨ r.d.state = 3) ∧ !r.seg.causes.any (fun c => c.code == cDEBUG && c.cls == 1 && !c.resolved) then
    (s.modRgn rg (fun r => r.addCause { code := cDEBUG, cls := 1, cs := r.stamp r.clk.sc })).causesChanged rg
  else s
/-- Resolve the service processors' requests of a region, and thaw it if nothing else holds it. -/
def State.spThaw (s : State) (rg : Nat) : State :=
  let s1 := s.modRgn rg (fun r => { r with seg := { r.seg with causes := r.seg.causes.map (fun c => if c.code = cDEBUG ∧ c.cls = 1 then { c with resolved := true } else c) } })
  if (s1.rgn rg).canThaw && (s1.rgn rg).d.state == 3 then s1.laterOnce (.thaw rg) else s1

/-- Act once none of the regions runs; until then hold them, and try again later. -/
def State.whenHeld (s : State) (rgs : List Nat) (again : Instr) (act : State → State) : State :=
  if rgs.any (fun n => (s.rgn n).d.state == 2) then (rgs.foldl State.spHold s).laterOnce again else act s

/-- The regions that satisfy a test, by number. -/
def State.regionsThat (s : State) (f : Region → Bool) : List Nat := (s.regions.filter (fun r => r.2.d.state != 0 && r.2.d.state != 6 && f r.2)).map Prod.fst

/-- Does a region hold a core of a logical die? -/
def Region.onDie (r : Region) (u v : Nat) : Bool := r.d.onDie u v

/-- The verdict that the causes of a region awaited has been acted on. -/
def Region.judge (r : Region) : Region := { r with seg := { r.seg with causes := r.seg.causes.map (fun c => { c with judged := true }) } }
/-- Roll back the regions of the verdict acted on, and those whose loss waited for it; the verdict is done. -/
def State.afterRepair (s : State) (f : Region → Bool) : State :=
  let rgs := s.regionsThat (fun r => r.d.state == 3 && r.seg.causes.any Cause.voted && f r)
  let named := (s.boot.acting.elim [] Verdict.regions).filter (fun n => (s.rgn n).d.state == 3)
  (rgs ++ named.filter (fun n => !rgs.contains n)).foldl (fun t n => (t.modRgn n Region.judge).laterOnce (.rollback n)) { s with boot := { s.boot with acting := none } }

/-! ## Fabric ports (spec/18_links_host_boot.md R379, R386) -/

/-- The regions that run or are held and cross a port. -/
def State.portUsers (s : State) (h : Nat) : List Nat := s.regionsThat (fun r => (r.d.state == 2 || r.d.state == 3) && s.crosses r h)

/-- LINK_DOWN: the link carries nothing more, and every region that crosses it is held with DATA_UNCORRECTABLE of class 13, whose ending is unpick with
reason 5 (R386; R358); one that is still loading, or saved, is unpicked at once. DEDUCED (log entry 30): idle flits are flits too (R379), so the
first flit that the link fails to deliver is that of the present
stitch. -/
def runLinkDown (h : Nat) (s : State) : State :=
  if !(s.port h).up then s
  else
    let s1 := (s.modPort h (fun p => { p with up := false })).msi 4 h
    let s2 := (s1.regionsThat (fun r => (r.d.state == 1 || r.d.state == 4) && s1.crosses r h)).foldl (fun (t : State) n => t.unpick n 5) s1
    (s.portUsers h).foldl (fun t n =>
      let (k, t1) := t.fresh
      t1.raiseOutside n ((t.rgn n).d.coreAt 0) (t.rgn n).clk.sc
        { code := 0x50, cls := 13, w5 := h, w6 := (Config.syndrome k).toNat, w7 := 6 * 2 ^ 36 + h * 2 ^ 31 }) s2

/-! ## Verdicts and votes (R366, R367) -/

/-- The logical die that sits on a physical C-die. -/
def State.dieAt (s : State) (col row : Nat) : Option (Nat × Nat) := ((List.range 12).find? (fun u => s.maps.dieCol u == col)).map (fun u => (u, row))

/-- The engine key of the bridge that an id of class 3 names: an MH keeps its column, an MV has that of the dies which sit at it (R306;
spec/01_panel.md R21). -/
def State.bridgeOf (s : State) (unit : Nat) : Option Nat :=
  let c := bitsOf unit 35 32
  let r := bitsOf unit 31 29
  if unit.testBit 28 then (s.dieAt c r).map (fun q => 96 + q.1 + 12 * q.2) else if c < 12 then some (c + 12 * r) else none

/-- Let go of the regions that a vote without a majority has kept held (R367). -/
def State.unkeep (s : State) : State :=
  (s.regionsThat Region.kept).foldl (fun t n => (t.modRgn n (fun r => { r with kept := false })).settle n) s

/-- Carry out a verdict (R366): the event of its ACTION, for the unit that its id names (R306). A channel is named by its router's id with the
direction of the seam in bits [1:0] (0 north, 1 east, 2 south, 3 west); it has lost a flit where the verdict names regions to roll back (log entry
33). Whether a die is excluded or darned to a remote spare is the service processors' choice (R368 row 6). -/
def State.act (s0 : State) (v : Verdict) : State :=
  let s := s0.unkeep
  let s1 : State := { s with boot := { s.boot with acting := some v, vote := 0, west := { s.boot.west with verdict := none }, east := { s.boot.east with verdict := none } } }
  let u := v.unit
  let c := bitsOf u 35 32
  let r := bitsOf u 31 29
  match v.action with
  | 0 => s1.afterRepair (fun _ => false)
  | 1 => s1.later (.coreRetire c r (bitsOf u 24 22) (bitsOf u 28 25))
  | 2 => match s.dieAt c r with | some (x, y) => s1.later (.channelSwap (4 * (x + 12 * y) + u % 4) (!v.regions.isEmpty)) | none => s1
  | 3 => match s.bridgeOf u with | some br => s1.later (.bridgeHalfRemap br (u.testBit 27)) | none => s1
  | 4 => s1.later (.columnDarn c)
  | 5 => match s.dieAt c r with | some (x, y) => s1.fresh.2.later (.remoteDarn x y (Config.remoteSpare s1.fresh.1)) | none => s1
  | 6 => match s.hLogical (bitsOf u 35 31) with
    | some h => if v.regions = [] ∧ !s.hGone h then s1.later (.hDieDarnInService h) else s1.later (.hDieDarn h)
    | none => s1
  | 7 => s1.later (.controlDieLoss (if u.testBit 35 then .east else .west))
  | _ => s1

/-- The verdicts that the service processors in service have formed, and the regions that they name. -/
def State.verdicts (s : State) : List Verdict := [s.boot.west.verdict, s.boot.east.verdict].filterMap id
def State.votedRegions (s : State) : List Nat := s.verdicts.flatMap Verdict.regions

/-- The neighbour that is asked (R367): the package behind the first port whose link is up and whose package lies in the same clock domain. -/
def State.neighbourFor (s : State) : Option Nat :=
  ((List.range 24).find? (fun h => (s.port h).up && Config.inDomain (s.partnerOf h).1)).map (fun h => (s.partnerOf h).1)
/-- Ask the neighbour, for an answer within 2^30 cycles. -/
def State.askNeighbour (s : State) : State :=
  ({ s with boot := { s.boot with vote := 1, voteAt := s.pcyc, neighbour := s.neighbourFor } }).atCycle (s.pcyc + 2 ^ 30) .neighbourVoteTimeout

/-- DIAGNOSIS: each service processor in service forms its verdict. Verdicts that agree are acted on; otherwise a neighbour is asked (R366, R367). -/
def runDiagnosis (west east : Option Verdict) (s : State) : State :=
  let w := if s.boot.west.serving then west else none
  let e := if s.boot.east.serving then east else none
  let s1 : State := { s with boot := { s.boot with west := { s.boot.west with verdict := w }, east := { s.boot.east with verdict := e } } }
  match w, e with
  | none, none => s
  | some a, some b => if a = b then s1.act a else s1.askNeighbour
  | _, _ => s1.askNeighbour

/-- No majority: the regions that either verdict names stay held, and the operator is asked (R367). -/
def State.noMajority (s : State) : State :=
  s.votedRegions.foldl (fun t n => (t.modRgn n (fun r => { r with kept := true })).spHold n) (({ s with boot := { s.boot with vote := 2 } }).msi 3 0)

/-- The verdict for which a ballot stands. -/
def State.ballotFor (s : State) (b : Ballot) : Option Verdict := match b with | .west => s.boot.west.verdict | .east => s.boot.east.verdict | .neither => none

/-- NEIGHBOUR_VOTE: the vote of the neighbour that was asked, within 2^30 cycles, makes a majority for a verdict (R367). -/
def runVote (b : Ballot) (s : State) : State :=
  if s.boot.vote = 1 ∧ s.boot.neighbour.isSome ∧ s.pcyc ≤ s.boot.voteAt + 2 ^ 30 then (match s.ballotFor b with | some v => s.act v | none => s.noMajority) else s
/-- NEIGHBOUR_VOTE_TIMEOUT: no answer within 2^30 cycles is a vote for neither. -/
def runVoteTimeout (s : State) : State := if s.boot.vote = 1 ∧ s.boot.voteAt + 2 ^ 30 ≤ s.pcyc then s.noMajority else s
/-- OPERATOR_VERDICT: the operator chooses a verdict, or the regions that the verdicts name are unpicked with reason 7. -/
def runOperator (b : Ballot) (s : State) : State :=
  if s.boot.vote = 2 then
    match s.ballotFor b with
    | some v => s.act v
    | none => s.votedRegions.foldl (fun t n => t.unpick n 7)
        { s with boot := { s.boot with vote := 0, west := { s.boot.west with verdict := none }, east := { s.boot.east with verdict := none } } }
  else s

/-! ## Errors in memory (R358, R368 rows 1 and 2) -/

/-- Has a region held writes of a closed domain due at a logical H-die? -/
def Region.applies (r : Region) (h : Nat) : Bool := r.apply.any (fun e => e.beats.any (fun b => b.2.2.2.any (fun q => (leafDies q.leaf).contains h)))
/-- Has a region an access due at a logical H-die (R378)? -/
def State.dueAt (s : State) (r : Region) (h : Nat) : Bool :=
  r.applies h || r.d.coreIds.any (fun id => (s.core id).xf.xfers.any (fun x => x.isFar && (List.range x.beats).any (fun j => !x.gone.contains j && (x.dies j).contains h &&
    decide (r.clk.sc ≤ (if x.farRead then x.slot0 + j else x.effAt j)))))
/-- The regions that use the unit with an id: the region of a core, those on a C-die, those that use a bridge, those with an access due at an H-die. -/
def State.usersOf (s : State) (unit : Nat) : List Nat :=
  let c := bitsOf unit 35 32
  let r := bitsOf unit 31 29
  match unit / 2 ^ 36 % 16 with
  | 1 => match s.onPhys (swaPhys unit) with | some id => (s.regionOf id).toList | none => []
  | 2 => match s.dieAt c r with | some (u, v) => s.regionsThat (fun q => q.onDie u v) | none => []
  | 3 => match s.bridgeOf unit with | some br => s.regionsThat (fun q => q.usesBridge s.maps br) | none => []
  | 4 => match s.hLogical (bitsOf unit 35 31) with | some h => s.regionsThat (fun q => s.dueAt q h) | none => []
  | _ => []

/-- CORRECTABLE_ERROR: a correction is counted and reported; 16 at one location within 2^32 cycles are evidence of a hard fault, for which the regions
using the unit are held until the service processors have formed their verdict (R368 row 1). -/
def runCorrectable (unit loc : Nat) (s : State) : State :=
  let key := unit * 2 ^ 64 + loc
  let l := (mgetD s.corr key []).filter (fun c => decide (s.pcyc < c + 2 ^ 32)) ++ [s.pcyc]
  let s1 := s.send (.report 8 unit)
  if 16 ≤ l.length then (s.usersOf unit).foldl State.spHold { s1 with corr := mset s1.corr key [] }
  else { s1 with corr := mset s1.corr key l }

/-- Mark what a poisoned value makes unusable: a register, a byte of a memory, or the snapshots of a domain level (R358). The address is a key of
`regP` in class 0, a special register's from 0x1000 on and a tag slot's in class 4, a tile element's from the first tile on in class 3, one of the
program memories from 2^48 on in class 8, a key of the region's `badP` in class 15, and an offset on the H-die in class 10. The classes 9, 11, 12 and 13
keep no mark: what they name is not at rest here (log entry 33). -/
def State.poisonAt (s : State) (rg cls unit addr : Nat) : State :=
  let p : Poison := ⟨cls, unit⟩
  let inCore := fun (k : Nat) => match s.onPhys (swaPhys unit) with | some id => s.modCore id (fun c => { c with regP := mset c.regP k p }) | none => s
  match cls with
  | 0 => inCore addr
  | 3 => inCore (tileKey 0 addr)
  | 4 => if 0x1000 ≤ addr then inCore addr else s
  | 15 => s.modRgn rg (fun r => { r with badP := mset r.badP addr p })
  | 1 => match s.onPhys (swaPhys unit) with | some id => s.modCore id (fun c => { c with imemP := mset c.imemP addr p }) | none => s
  | 2 => match s.onPhys (swaPhys unit) with | some id => s.modCore id (fun c => { c with scrP := mset c.scrP addr p }) | none => s
  | 5 =>
    let mark := fun (d : Domain) => if d.level = addr % 4 then { d with bad := true } else d
    s.modRgn rg (fun r => { r with doms := r.doms.map mark, closing := r.closing.map (fun q => (q.1, mark q.2)) })
  | 6 | 7 | 14 => { s with nearP := mset s.nearP addr p }
  | 8 => { s with mvP := mset s.mvP addr p }
  | 10 => { s with farP := mset s.farP (bitsOf unit 35 31 * 2 ^ 37 + addr) p }
  | _ => s
/-- The translation-cache entry that a poisoned value of class 4 lies in, by the offset of its register (spec/14_system_state.md R314; log entry 33). -/
def tceAt (cls unit addr : Nat) : Option Nat :=
  if cls = 4 ∧ unit / 2 ^ 36 % 16 = 1 ∧ 0x400 ≤ addr ∧ addr < 0x800 then some ((addr - 0x400) / 16) else none
/-- The protected group in which a stripe byte of class 10 lies, with which the H-die in service rebuilds it in place (R374). -/
def State.scrubGroup (s : State) (cls unit addr : Nat) : Option (BitVec 64 × Nat × Nat) :=
  if cls ≠ 10 then none
  else (s.hLogical (bitsOf unit 35 31)).bind (fun h => (leafAt s.protPages h addr).map (fun l => (l, (addr - leafOfs l) / 512, (addr - leafOfs l) % 256)))
/-- SCRUB_POISON: the scrub of idle SRAM has found a poisoned value of a region; it is reported and stamped at the segment root (R358). A poisoned entry
of a translation cache is invalid and raises no fault; a single bad stripe of a protected group is rebuilt in place (R374). -/
def runScrub (rg cls unit addr : Nat) (s : State) : State :=
  let r := s.rgn rg
  match tceAt cls unit addr, s.scrubGroup cls unit addr with
  | some n, _ => match s.onPhys (swaPhys unit) with | some id => s.modCore id (fun c => { c with tce := mdel c.tce n }) | none => s
  | none, some (l, g, e) => (s.poisonAt rg cls unit addr).healAt l g e
  | none, none =>
  if r.d.state = 2 ∨ r.d.state = 3 then
    let at_ := if unit / 2 ^ 36 % 16 = 1 ∧ cls ≤ 5 then ((s.onPhys (swaPhys unit)).filter r.d.holds).getD (r.d.coreAt 0) else r.d.coreAt 0
    let (n, s1) := (s.poisonAt rg cls unit addr).fresh
    s1.raiseOutside rg at_ r.clk.sc { code := 0x50, cls := cls, w5 := addr, w6 := (Config.syndrome n).toNat, w7 := unit }
  else s

/-- Ease the held regions that satisfy a test as the repairs in force require; one that would need a factor above 8 is placed again (R53, R369). -/
def State.easeUsers (s : State) (rgs : List Nat) : State :=
  rgs.foldl (fun t n => if 8 < t.loadK (t.rgn n) then t.placeAgain n else t.modRgn n (fun r => { r with d := { r.d with ease := t.easeAfter r } })) s

/-! ## Cores and dies (R18 to R21; R368 rows 3 and 6) -/

/-- Has a region a logical core in a row of a logical die at or beyond a physical core column? -/
def Region.inRow (r : Region) (u v row : Nat) : Bool := (List.range 8).any (fun cx => r.d.holds (96 * (8 * v + row) + 8 * u + cx))

/-- C_DIE_LOST: every region with a logical die in the lost die's logical column or east of it is held; one with a core on the die by a fault that
awaits the verdict (R368 row 6). -/
def runDieLost (col row : Nat) (s : State) : State :=
  match s.dieAt col row with
  | none => s
  | some (u, v) =>
    (s.regionsThat (fun r => decide (8 * u < r.d.x0 + r.d.wid))).foldl (fun t n =>
      let r := t.rgn n
      if r.onDie u v then
        let (k, t1) := t.fresh
        if r.d.state = 2 ∨ r.d.state = 3 then
          t1.raiseOutside n (r.d.coreAt 0) r.clk.sc { code := 0x50, cls := 15, w6 := (Config.syndrome k).toNat, w7 := 2 * 2 ^ 36 + col * 2 ^ 32 + row * 2 ^ 29, tag := 1 }
        else t
      else t.spHold n) s

/-- Does a held region roll back once the repair is made: it has a fault that awaited the verdict, or the verdict names it? -/
def State.rollsBack (s : State) (n : Nat) : Bool :=
  (s.rgn n).d.state == 3 && ((s.rgn n).seg.causes.any Cause.voted || (s.boot.acting.elim [] Verdict.regions).contains n)
/-- The scratchpads of moved cores hold zero on their new physical cores, in the regions that roll back; in the others the service processors move
the whole state (spec/13_programs_region.md R305; R368 rows 3 and 6). -/
def State.clearMoved (s : State) (rgs : List Nat) (moved : Nat → Bool) : State :=
  (rgs.filter s.rollsBack).foldl (fun t n => ((t.rgn n).d.coreIds.filter moved).foldl (fun t id => t.modCore id (fun c => { c with scr := [], scrP := [] })) t) s

/-- CORE_RETIRE: a core is retired by row shift (R18). A second one in a row makes the die lost. Every region with a core in the row is held while
the map is rewritten; those that the verdict names roll back, and the others thaw. -/
def runRetire (dc dr row col : Nat) (s : State) : State :=
  let key := 64 * dc + 8 * dr + row
  match mget s.maps.retired key with
  | some f => if f = col then s else runDieLost dc dr s
  | none =>
    let inRow := fun (r : Region) => match s.dieAt dc dr with | some (u, v) => r.inRow u v row | none => false
    let moved := fun (id : Nat) => match s.dieAt dc dr with | some (u, v) => id / 96 == 8 * v + row && id % 96 / 8 == u && decide (col ≤ id % 8) | none => false
    let users := s.regionsThat inRow
    s.whenHeld users (.coreRetire dc dr row col) (fun s =>
      let s1 := { s with maps := { s.maps with retired := mset s.maps.retired key col } }.clearMoved users moved
      users.foldl State.spThaw ((users.foldl State.writeRoutes s1).afterRepair inRow))

/-- The key of an MV's column after a column of dies is darned: the MV buffers of a logical die are those of the physical MV at it (R21), so what is
noted of an MV goes one logical column west, and the darned column's is gone. -/
def shiftMv (col e : Nat) : Option Nat := if e < 96 ∨ e % 96 % 12 < col then some e else if e % 96 % 12 = col then none else some (e - 1)
/-- COLUMN_DARN: the die map shifts round a column that has lost a die (R19, R21): plans that use a moved MV buffer are set up again, regions with a
core on the lost die roll back, and the others thaw, with the ease that the seams now on their paths require (R369). Where a column is already darned the map stays (R20). -/
def runColumn (col : Nat) (s : State) : State :=
  if s.maps.darned.isSome then s
  else
    let users := s.regionsThat (fun r => decide (8 * col < r.d.x0 + r.d.wid))
    s.whenHeld users (.columnDarn col) (fun s =>
      let maps := { s.maps with
        darned := some col
        halves := s.maps.halves.filterMap (fun h => (shiftMv col h.1).map (fun e => (e, h.2)))
        banks := s.maps.banks.foldl (fun m b => match shiftMv col (b.1 / 64) with | some e => mset m (64 * e + b.1 % 64) b.2 | none => m) [] }
      let s1 := { s with maps := maps }.clearMoved users (fun id => decide (col ≤ id % 96 / 8))
      let s2 := users.foldl (fun t n => t.replan n (fun p => p.ranks.any (fun k => decide (96 ≤ k.engine) && decide (col ≤ engU k.engine)))) s1
      users.foldl State.spThaw (((users.foldl State.writeRoutes s2).easeUsers users).afterRepair (fun r => r.seg.causes.any (fun c => c.tag == 1 && c.cls == 15))))

/-- REMOTE_DARN: a die lost after a column is darned is excluded, and its regions unpicked with reason 5, or it is darned to a remote spare, and its
regions roll back with the ease that the spare needs (R20, R369; R338). A spare must lie in the clock domain (R369, R380), and a region that no port
of its partition's key set brings there is unpicked with reason 5 (R387). -/
def runRemote (u v : Nat) (spare : Option (Nat × Nat)) (s : State) : State :=
  let k := u + 12 * v
  let users := s.regionsThat (fun r => r.onDie u v)
  match spare.filter (fun p => Config.inDomain p.1) with
  | none => (users.foldl (fun (t : State) n => t.unpick n 5) { s with maps := { s.maps with excluded := s.maps.excluded ++ (if s.maps.excluded.contains k then [] else [k]) } }).afterRepair (fun _ => false)
  | some p =>
    s.whenHeld users (.remoteDarn u v spare) (fun s =>
      let s1 := { s with maps := { s.maps with remote := mset s.maps.remote k p } }.clearMoved users (fun id => id % 96 / 8 == u && id / 96 / 8 == v)
      let cut := users.filter (fun n => !s1.remoteOk (s1.rgn n).d.part p.1)
      (cut.foldl (fun (t : State) n => t.unpick n 5) (users.foldl State.writeRoutes s1)).afterRepair (fun r => r.onDie u v))

/-! ## Channels and bridges (R368 rows 4 and 5; R369, R370) -/

/-- The id of the die that a logical seam direction leaves: of a C-die or an H-die (spec/14_system_state.md R306). -/
def State.seamId (s : State) (n : Nat) : Nat :=
  if n / 4 < 96 then 2 * 2 ^ 36 + s.maps.dieCol (n / 4 % 12) * 2 ^ 32 + n / 4 / 12 * 2 ^ 29 else hdieId (s.hPhys (n / 4 - 96))
/-- One more channel of the physical seam direction that serves a logical one has failed. -/
def State.seamFails (s : State) (n : Nat) : State :=
  let q := s.maps.physSeam n
  { s with maps := { s.maps with seams := mset s.maps.seams q (mgetD s.maps.seams q 0 + 1) } }
/-- CHANNEL_SWAP: a failed channel of a seam direction is swapped for a repair channel. One that has lost a flit gives DATA_UNCORRECTABLE of class 9, and
the regions roll back; one that degrades is swapped while the regions that use it are held, and they thaw. -/
def runSwap (seam : Nat) (lossy : Bool) (s : State) : State :=
  let users := s.regionsThat (fun r => r.usesSeam seam)
  if lossy then
    (users.filter (fun n => (s.rgn n).d.state == 2 || (s.rgn n).d.state == 3)).foldl (fun t n =>
      let (k, t1) := t.fresh
      if (t.rgn n).seg.causes.any (fun c => c.code == 0x50 && c.cls == 9) then t
      else t1.raiseOutside n ((t.rgn n).d.coreAt 0) (t.rgn n).clk.sc { code := 0x50, cls := 9, w5 := seam, w6 := (Config.syndrome k).toNat, w7 := s.seamId seam })
      ((s.seamFails seam).afterRepair (fun _ => false))
  else s.whenHeld users (.channelSwap seam lossy) (fun s => users.foldl State.spThaw ((s.seamFails seam).easeUsers users))

/-- The banks of a half of a bridge: half A has banks 0 to 31, half B the others (log entry 34). -/
def halfBanks (half : Bool) : List Nat := (List.range 32).map (fun i => if half then 32 + i else i)

/-- M_DIE_HALF_LOST: every region that uses the bridge is held by a fault that awaits the verdict (R368 row 5). -/
def runHalfLost (br : Nat) (half : Bool) (s : State) : State :=
  (s.regionsThat (fun r => r.usesBridge s.maps br)).foldl (fun t n =>
    let r := t.rgn n
    let (k, t1) := t.fresh
    if r.d.state = 2 ∨ r.d.state = 3 then
      t1.raiseOutside n (r.d.coreAt 0) r.clk.sc
        { code := 0x50, cls := if br < 96 then 6 else 8, w5 := br, w6 := (Config.syndrome k).toNat, w7 := engineId s.maps br + (if half then 2 ^ 27 else 0), tag := 1 }
    else t) s

/-- The banks of an engine that regions hold: granted ones of an MH, reserved ones of an MV. -/
def State.bankUse (s : State) (br b : Nat) : List Nat :=
  s.regionsThat (fun r => if br < 96 then (mgetD r.d.grant br 0).getLsbD b else r.plans.any (fun p => p.banks.contains (br, b)))
/-- The free banks among some of an engine's. -/
def State.freeBanks (s : State) (br : Nat) (bs : List Nat) : List Nat := bs.filter (fun b => (s.bankUse br b).isEmpty)
/-- Unpick regions, highest number first, until the banks in use of the lost half find a place among the free ones of the other, those that the
unpicks free included. -/
def remapFit (br : Nat) (lost keep : List Nat) : Nat → State → State
  | 0, s => s
  | n + 1, s =>
    let used := lost.filter (fun b => !(s.bankUse br b).isEmpty)
    let room := (s.freeBanks br keep).length
    if used.length ≤ room then s
    else match ((used.drop room).flatMap (s.bankUse br)).foldl (fun m x => some (match m with | some y => max x y | none => x)) none with
      | some g => remapFit br lost keep n (s.unpick g 5)
      | none => s

/-- BRIDGE_HALF_REMAP: while the regions that use the bridge are held (R25), the banks in use of a lost half move to free banks of the other half, in
ascending order, and read zero until a rollback writes preserved ranges back; regions left without a place are unpicked (R370). -/
def runRemap (br : Nat) (half : Bool) (s : State) : State :=
  let lost := halfBanks half
  s.whenHeld (s.regionsThat (fun r => r.usesBridge s.maps br)) (.bridgeHalfRemap br half) (fun s =>
    let s1 := remapFit br lost (halfBanks !half) 512 s
    let moved := (lost.filter (fun b => !(s1.bankUse br b).isEmpty)).zip (s1.freeBanks br (halfBanks !half))
    let s2 := lost.foldl (fun t b => t.zeroBank br b) s1
    let users := s2.regionsThat (fun r => r.usesBridge s2.maps br)
    let s3 : State := { s2 with maps := { s2.maps with
      halves := s2.maps.halves ++ (if s2.maps.halves.contains (br, half) then [] else [(br, half)])
      banks := moved.foldl (fun m q => mset m (64 * br + q.1) q.2) s2.maps.banks } }
    (users.foldl (fun t n => t.replan n (fun p => p.ranks.any (fun k => k.engine == br))) s3).afterRepair (fun r => r.usesBridge s3.maps br))

/-! ## H-dies (R371 to R374, R378, R402; R368 row 7) -/

/-- Has a region a far write due that touches a logical H-die? -/
def State.writeDue (s : State) (r : Region) (h : Nat) : Bool :=
  r.d.coreIds.any (fun id => (s.core id).xf.xfers.any (fun x => x.farWrite && (List.range x.beats).any (fun j => !x.gone.contains j && (x.dies j).contains h &&
    decide (r.clk.sc ≤ x.effAt j)))) || r.applies h
/-- The held regions with an access due at a lost H-die get their REBUILD cause, stamped with their hold stitch (R368 row 7, R378;
spec/02_stitch_time.md R43). -/
def State.heldDue (s : State) (h phys : Nat) : State :=
  (s.regionsThat (fun r => r.d.state == 3 && s.dueAt r h)).foldl (fun t n =>
    (t.rebuildCause n (t.rgn n).clk.sc phys (t.writeDue (t.rgn n) h)).causesChanged n) s
/-- H_DIE_LOSS: an H-die performs nothing more. The accesses due there are found at their own stitches (R378); a region that is held already gets its
REBUILD cause now, with its hold stitch (spec/02_stitch_time.md R43). A copy or a rebuild that it took
part in is abandoned (R402), and the fabric port of the identity that it holds goes down (R371, R379). -/
def runHLoss (phys : Nat) (s : State) : State :=
  if s.hdies.lost.contains phys ∨ 26 ≤ phys then s
  else
    let prots := s.protPages
    let s1 : State := { s with hdies := { s.hdies with
        lost := s.hdies.lost ++ [phys], prot := prots.eraseDups, rebuild := mdel s.hdies.rebuild phys
        copy := s.hdies.copy.filter (fun q => q.1 != phys && q.2 != phys) } }
    match s.hLogical phys with
    | some h => runLinkDown h (s1.heldDue h phys)
    | none => s1

/-- The spare for a logical H-die (R371): its own side's, else the other, else none. -/
def State.spareFor (s : State) (h : Nat) : Option Nat :=
  let free := fun p => !s.hdies.lost.contains p && !s.maps.hmap.toList.contains p && !s.hdies.copy.any (fun q => q.2 == p)
  ((if h < 12 then [12, 25] else [25, 12]).find? free)
/-- Empty a spare H-die before it takes an identity. -/
def State.clearDie (s : State) (p : Nat) : State :=
  let out := fun (k : Nat) => k / 2 ^ 37 != p
  { s with far := s.far.filter (fun c => out c.1), farP := s.farP.filter (fun c => out c.1)
           hdies := { s.hdies with spares := s.hdies.spares.filter (· != p), rebuild := mdel s.hdies.rebuild p, cleared := s.hdies.cleared.filter (fun u => out (32 * u)), ahead := s.hdies.ahead.filter (fun u => out (512 * u)) } }
/-- The service processors' copy of an ownership map, written to another physical H-die (R371, R402). -/
def moveOwn (m : Map Byte) (old p : Nat) : Map Byte := (List.range 120).foldl (fun m b => mset m (128 * p + b) (mgetD m (128 * old + b) 0)) m
/-- Rewrite entry `h` of the H-die map (R377), with the ownership map of the H-die that held it. -/
def State.mapH (s : State) (h p : Nat) : State :=
  { s with maps := { s.maps with hmap := s.maps.hmap.set (h % 24) p (Nat.mod_lt _ (by decide)) }, hdies := { s.hdies with own := moveOwn s.hdies.own (s.hPhys h) p } }
/-- What the pages of a spare that is itself darned to another carry over: its lost marks and its rebuild (R402). -/
def HDies.carryOver (d : HDies) (old p : Nat) : HDies :=
  let move := fun (n : Nat) (l : List Nat) => l ++ (l.filter (fun u => u * n / 2 ^ 37 == old)).map (fun u => p * (2 ^ 37 / n) + u % (2 ^ 37 / n))
  { d with spares := d.spares ++ (if d.spares.contains old then [p] else []), cleared := move 32 d.cleared, ahead := move 512 d.ahead
           rebuild := match mget d.rebuild old with | some k => mset (mdel d.rebuild old) p k | none => d.rebuild }
/-- Does a region use a logical H-die: an access due there, or a page of its partition that lies on it (R371; log entry 34)? -/
def State.usesH (s : State) (r : Region) (h : Nat) : Bool :=
  s.dueAt r h || (s.partOn r.d.part && (s.leavesUnder s.knownProt 4 (s.partRoot r.d.part)).any (fun l => (leafDies l).contains h))

/-- What follows for the regions held for a lost H-die once it is darned: roll back with a write due there, else thaw (R368 row 7, R378). -/
def State.hSettled (s : State) (h phys : Nat) : State :=
  (s.regionsThat (fun r => r.d.state == 3 && r.seg.causes.any (fun c => c.code == cREBUILD && c.tag == phys))).foldl (fun t n =>
    let r := t.rgn n
    if r.seg.causes.any (fun c => c.code == cREBUILD && c.tag == phys && c.cls == 1) || t.writeDue r h then t.laterOnce (.rollback n)
    else
      let t1 := t.setRgn n { r with seg := { r.seg with causes := r.seg.causes.map (fun c => if c.code = cREBUILD ∧ c.tag = phys then { c with resolved := true } else c) } }
      if (t1.rgn n).canThaw then (t1.causesChanged n).laterOnce (.thaw n) else t1.causesChanged n) s

/-- H_DIE_DARN: a lost logical H-die is darned to a spare, which keeps lost marks for its unprotected pages and rebuilds the protected ones; with no
spare left, the regions that use it are unpicked with reason 5 (R371). The map is rewritten once every region with an access due there is held, by the
REBUILD cause that the access gives it at its stitch, or by another cause, which that one then joins (R377, R378). -/
def runHDarn (h : Nat) (s : State) : State :=
  let old := s.hPhys h
  if !s.hGone h then s
  else match s.spareFor h with
    | none => ((s.regionsThat (fun r => s.usesH r h || r.seg.causes.any (fun c => c.code == cREBUILD && c.tag == old))).foldl (fun t n => t.unpick n 5) s).afterRepair (fun _ => false)
    | some p =>
      if (s.regionsThat (fun r => r.d.state == 2 && (s.dueAt r h || r.seg.causes.any (fun c => c.code == cREBUILD && c.tag == old)))).isEmpty then
        let s1 := ((s.heldDue h old).clearDie p).mapH h p
        let s2 : State := { s1 with hdies := { s1.hdies with spares := s1.hdies.spares ++ [p], rebuild := mset s1.hdies.rebuild p 0 } }
        (((s2.hSettled h old).laterOnce (.groupRebuild h))).afterRepair (fun _ => false)
      else s.laterOnce (.hDieDarn h)

/-- Is a byte of a physical H-die in an owned block (R317)? -/
def State.ownedAt (s : State) (key : Nat) : Bool := (mgetD s.hdies.own (128 * (key / 2 ^ 37) + key % 2 ^ 37 / 2 ^ 30) 0).getLsbD 4
/-- H_DIE_DARN_IN_SERVICE: the owned blocks of an H-die in service are copied to a spare, writes in between going to both; then its map entry is
rewritten while the regions with an access due there, or that cross its port, are held, and they thaw (R402). The fabric port stays up only where the spare's own is cabled to
the same partner (R371). -/
def runHMove (h : Nat) (s : State) : State :=
  let old := s.hPhys h
  if s.hGone h then s
  else match mget s.hdies.copy old with
    | none => match s.spareFor h with
      | none => s
      | some p =>
        let s1 := s.clearDie p
        let far := (s1.far.filter (fun c => c.1 / 2 ^ 37 == old && s.ownedAt c.1)).foldl (fun m c => Memory.write m (p * 2 ^ 37 + c.1 % 2 ^ 37) c.2) s1.far
        let farP := (s1.farP.filter (fun c => c.1 / 2 ^ 37 == old && s.ownedAt c.1)).foldl (fun m c => mset m (p * 2 ^ 37 + c.1 % 2 ^ 37) c.2) s1.farP
        ({ s1 with far := far, farP := farP, hdies := { s1.hdies with copy := mset s1.hdies.copy old p } }).laterOnce (.hDieDarnInService h)
    | some p =>
      let users := s.regionsThat (fun r => s.dueAt r h || r.usesPort h)
      s.whenHeld users (.hDieDarnInService h) (fun s =>
        let s1 := s.mapH h p
        let s2 := users.foldl State.spThaw (({ s1 with hdies := { s1.hdies.carryOver old p with copy := mdel s1.hdies.copy old } } : State).easeUsers users)
        if Config.partner p = Config.partner old then s2 else runLinkDown h s2)

/-- The groups on a spare that its rebuild writes first: those of beats that wait for it under a REBUILD hold, and of degraded reads on their way
(R374). -/
def State.wanted (s : State) (p : Nat) : List (BitVec 64 × Nat) :=
  s.regions.flatMap (fun r =>
    let waits := r.2.d.state == 3 && r.2.seg.causes.any (fun c => c.code == cREBUILD && !c.resolved)
    if r.2.d.state = 2 ∨ r.2.d.state = 3 then
      r.2.d.coreIds.flatMap (fun id => (s.core id).xf.xfers.flatMap (fun x => (List.range x.beats).flatMap (fun j =>
        if !x.gone.contains j && ((waits && x.isFar && s.beatRebuilding x j) ||
            (x.farRead && decide (x.probeAt j ≤ r.2.clk.sc) && decide (r.2.clk.sc < x.land0 + j))) then
          ((runCells (x.runs j)).map (fun c => (c.1, c.2.1))).eraseDups.filter (fun c => (s.stripeKeys c.1 c.2 0).any (fun k => k / 2 ^ 37 == p && !s.hOk k))
        else [])))
    else [])
/-- The regions whose REBUILD cause a rebuild has resolved: none of their beats waits any more. -/
def State.rebuilt (s : State) : State :=
  (s.regionsThat (fun r => r.d.state == 3 && r.seg.causes.any (fun c => c.code == cREBUILD && !c.resolved && !s.hdies.lost.contains c.tag))).foldl (fun t n =>
    let r := t.rgn n
    if r.d.coreIds.any (fun id => (t.core id).xf.xfers.any (fun x => x.isFar && (List.range x.beats).any (fun j => !x.gone.contains j && t.beatRebuilding x j))) then t
    else
      let t1 := t.setRgn n { r with seg := { r.seg with causes := r.seg.causes.map (fun c =>
        if c.code = cREBUILD ∧ !s.hdies.lost.contains c.tag then { c with resolved := true } else c) } }
      if (t1.rgn n).canThaw then (t1.causesChanged n).laterOnce (.thaw n) else t1.causesChanged n) s
/-- The next 512-byte unit of a spare that holds stripes of a protected page: its offset, the page and the group. -/
def State.nextUnit (s : State) (h k : Nat) : Option (Nat × BitVec 64 × Nat) :=
  (s.hdies.prot.filter (fun l => (leafDies l).contains h && decide (k < leafOfs l + 2 ^ (leafSize l - 1)))).foldl (fun m l =>
    let o := max k (leafOfs l)
    match m with
    | some (o', _) => if o < o' then some (o, l, (o - leafOfs l) / 512) else m
    | none => some (o, l, (o - leafOfs l) / 512)) none

/-- GROUP_REBUILD: the background rebuild writes a group to the spare of a lost H-die: one that an access waits for first, else the next in
ascending order of offset (R374). -/
def runRebuild (h : Nat) (s : State) : State :=
  let p := s.hPhys h
  match mget s.hdies.rebuild p with
  | none => s
  | some k =>
    match s.wanted p with
    | (l, g) :: _ =>
      ((s.fillNow l g).rebuilt).laterOnce (.groupRebuild h)
    | [] =>
      match s.nextUnit h k with
      | none => ({ s with hdies := { s.hdies with rebuild := mdel s.hdies.rebuild p, ahead := s.hdies.ahead.filter (fun u => u * 512 / 2 ^ 37 != p) } }).rebuilt
      | some (o, l, g) =>
        let s1 := s.fillGroup l g
        (({ s1 with hdies := { s1.hdies with rebuild := mset s1.hdies.rebuild p (o + 512) } }).rebuilt).laterOnce (.groupRebuild h)

/-! ## Packages and control dies (R368 rows 8 and 9) -/

/-- PACKAGE_LOSS: a multi-package region with a part on the lost package, which is named by its part number, is held with DATA_UNCORRECTABLE of class 11 and
unpicked with reason 5; one that is loading or saved is unpicked at once. -/
def runPackage (pkg : Nat) (s : State) : State :=
  (s.regionsThat (fun r => decide (1 < r.d.npkg) && decide (pkg < r.d.npkg) && r.d.pkg != pkg)).foldl (fun t n =>
    let (k, t1) := t.fresh
    if (t.rgn n).d.state ≠ 2 ∧ (t.rgn n).d.state ≠ 3 then t.unpick n 5
    else t1.raiseOutside n ((t.rgn n).d.coreAt 0) (t.rgn n).clk.sc { code := 0x50, cls := 11, w5 := pkg, w6 := (Config.syndrome k).toNat }) s

/-- CONTROL_DIE_LOSS: a control die, its harts and its service processor are out of service; the standby takes over. No region is held. -/
def runControl (side : Side) (s : State) : State :=
  let e := side == .east
  let s1 := s.modSched (fun q => if e then { q with eastUp := false } else { q with westUp := false })
  let s2 : State := { s1 with boot := if e then { s1.boot with east := { s1.boot.east with serving := false, verdict := none, session := false } } else { s1.boot with west := { s1.boot.west with serving := false, verdict := none, session := false } } }
  let s3 := s2.afterRepair (fun _ => false)
  if s.sched.east = e then s3.laterOnce .schedulerTakeover else s3

end Sys2Proof.Machine
end

