-- ==== Sys2Proof/Machine/Links.lean ====
section
/-! DEFINITION. Fabric links, keys, boot, attestation, power and ease (spec/18_links_host_boot.md R379 to R400). Beats from other packages are
inputs that the model does not take (log entry 30); what a link does to the regions of this package is modelled. -/
namespace Sys2Proof.Machine

/-! ## Fabric ports (R379 to R386) -/

/-- The physical H-die that holds a logical one before any is darned (spec/01_panel.md R22). -/
def homeDie (h : Nat) : Nat := if h < 12 then h else h + 1
/-- Can the port of a logical H-die be trained: the H-die that holds it is in service, and where a spare holds it, the spare's port is cabled to the
partner that the port had (R371, R379)? -/
def State.trainable (s : State) (h : Nat) : Bool := !s.hGone h && decide (s.hPhys h = homeDie h ∨ s.partnerOf h = Config.partner (homeDie h))
/-- Has the group counter of a direction reached 2^40 (R390)? -/
def Port.spent (p : Port) : Bool := decide (2 ^ 40 ≤ p.ctrIn) || decide (2 ^ 40 ≤ p.ctrOut)
/-- LINK_TRAINING: the measured latency, with 6 in containment mode, becomes Lfab; only while no region crosses the port (R381). A protected direction
gets a key set from 1 to 31, which the service processors choose (R387). A direction whose counter has reached 2^40 sends no further group, so its
link stays down until its key is switched (R390). The service processors check the cabling (R382) and the clock domain (R380). -/
def runTraining (h lat : Nat) (skid prot : Bool) (s : State) : State :=
  if 24 ≤ h ∨ s.boot.rail = false ∨ s.trainable h = false ∨ (prot = true ∧ (s.port h).spent = true) ∨ !(s.regionsThat (fun r => s.crosses r h)).isEmpty then s
  else
    let (n, s1) := s.fresh
    let far := s.partnerOf h
    s1.modPort h (fun p => { p with up := true, cabled := decide (far.2 % 24 = (h + 12) % 24) && Config.inDomain far.1, lfab := lat + (if prot && !skid then 6 else 0), prot := prot, skid := prot && skid, keyset := if prot then Config.keySet n % 31 + 1 else 0 })

/-- SYNC_PULSE: an aligned pulse changes nothing; a package that has lost alignment takes every fabric link down (R380). -/
def runSync (aligned : Bool) (s : State) : State := if aligned then s else (List.range 24).foldl (fun t h => runLinkDown h t) s

/-! ## Protected links (R387 to R390) -/

/-- The initialisation vector of a group (R388), by the number of the port that sends it, which both ends of the cable put in (log entry 10): what
leaves by a north port travels north. -/
def groupIv (sender epoch ctr : Nat) : BitVec 96 :=
  BitVec.ofNat 96 (sender % 32 * 2 ^ 91 + (if 12 ≤ sender then 0 else 2 ^ 90) + epoch % 2 ^ 26 * 2 ^ 64 + ctr % 2 ^ 64)
/-- Is the tag of a group that comes in by a port, from a port of that number, good (R388)? The order in which the standard takes the bits of the table
is the model's (log entry 10). -/
def Port.tagGood (p : Port) (sender : Nat) (data : List Byte) (tag : BitVec 96) : Bool :=
  match p.actIn with
  | some k => gcmTag k (groupIv sender p.epochIn p.ctrIn) (toBytesMsb 8 (p.ctrIn % 2 ^ 64)) data == tag
  | none => false

/-- COUNTER_EXHAUSTED: a direction whose group counter has reached 2^40 sends no further group, and its link goes down (R390). -/
def runExhausted (h : Nat) (inward : Bool) (s : State) : State :=
  if 2 ^ 40 ≤ (if inward then (s.port h).ctrIn else (s.port h).ctrOut) then runLinkDown h s else s

/-- KEY_SWITCH: at the group that both ends have agreed on the next key becomes active, the epoch advances, and the counter restarts (R390). -/
def runKeySwitch (h : Nat) (inward : Bool) (s : State) : State :=
  let p := s.port h
  if inward then (if p.nextIn.isSome ∧ p.ctrIn = p.atIn then s.modPort h (fun p => { p with actIn := p.nextIn, nextIn := none, epochIn := p.epochIn + 1, ctrIn := 0 }) else s)
  else if p.nextOut.isSome ∧ p.ctrOut = p.atOut then s.modPort h (fun p => { p with actOut := p.nextOut, nextOut := none, epochOut := p.epochOut + 1, ctrOut := 0 }) else s
/-- Is a direction at the group that its ends have agreed on for the next key? -/
def Port.switches (p : Port) (inward : Bool) : Bool := if inward then p.nextIn.isSome && p.ctrIn == p.atIn else p.nextOut.isSome && p.ctrOut == p.atOut
/-- What follows when the group counter of a direction has come to `c`: the switch to the next key at the agreed group; else a message at 2^39, and the
end of the link at 2^40, before another group is sent (R390, R392). -/
def State.counted (s : State) (h : Nat) (inward : Bool) (c : Nat) : State :=
  if (s.port h).switches inward then runKeySwitch h inward s else if c = 2 ^ 39 then s.msi 4 h else if 2 ^ 40 ≤ c then runLinkDown h s else s

/-- The stitches that a step of a path takes (R48, R383). -/
def Leg.cost (d : Descr) (l : Leg) : Nat := if Leg.fab l then 48 + d.lfab else if Leg.die l then 24 else 2
/-- The stitches from the arrival of a beat at a port to its landing (R383): the steps that follow, and the last router and the scratchpad. -/
def Route.afterPort (e : Route) (d : Descr) (h : Nat) : Nat :=
  let rest := ((e.legs d).dropWhile (fun l => !(l.uses d.pkg).contains (2 ^ 16 + 2 * h + 1))).drop 1
  rest.foldl (fun n l => n + l.cost d) 2

/-- A beat, or a chunk of a plan, that comes in by a port: the core, the transfer and the beat; or the plan, the rank, and the stitch of the recv that takes
it, or the place of the copy's write among those that wait. -/
inductive Coming where
  | beat (id trig j : Nat)
  | recv (handle rank at_ : Nat)
  | copy (handle rank i : Nat)
deriving DecidableEq, Repr

/-- What comes in by a port and may have a flit in the group that has just arrived, with its landing stitch. Of the beats of a region these are the
beats that arrive in its present stitch or in the one before, for a group may lie across two; a chunk of a plan is on its way for the latency of its
link, and R272 does not say when it passes the port (log entry 30). -/
def State.coming (s : State) (r : Region) (h : Nat) : List (Coming × Nat) :=
  let sc := r.clk.sc
  let beats := r.d.coreIds.flatMap (fun id => (s.core id).xf.xfers.flatMap (fun x =>
    match (mget r.routes x.route).filter (fun e => x.kind == .recv && e.sp != r.d.pkg && e.portIn r.d == h) with
    | some e =>
      let n := e.afterPort r.d h
      ((List.range x.beats).filter (fun j => !x.gone.contains j && (sc + n == x.land0 + j || sc + n == x.land0 + j + 1))).map (fun j => (.beat id x.trig j, x.land0 + j))
    | none => []))
  let via := fun (p : Plan) (k l : Nat) => p.chans.any (fun c => c.1 == 16 * k + l && c.2.1 == 2 ^ 16 + 2 * h + 1)
  let recvs := (List.range (r.plans.foldl (fun m p => p.ranks.foldl (fun m k => k.links.foldl (fun m l => if l.2.away then max m (l.2.lam + 1) else m) m) m) 0)).flatMap (fun i =>
    (s.opsDue r (sc + i)).filterMap (fun q =>
      (r.plan q.1).bind (fun p =>
        let rk := p.rank q.2.1
        let o := pzOf (opWordAt (s.prog rk) q.2.2.1 q.2.2.2)
        let l := bitsOf o.x 14 11
        if o.opc == 2 && ((mget rk.links l).any (fun z => z.away && decide (i ≤ z.lam))) && via p q.2.1 l then some (.recv q.1 q.2.1 (sc + i), sc + i) else none)))
  let copies := r.plans.flatMap (fun p => (List.range p.ranks.length).flatMap (fun k =>
    (List.range (p.rank k).writes.length).filterMap (fun i =>
      ((p.rank k).writes[i]?).bind (fun w => w.src.bind (fun l => if via p k l then some (.copy p.handle k i, w.due) else none)))))
  beats ++ recvs ++ copies

/-- What a group whose tag fails does to what came by it (R389): in containment mode it is not written; in skid mode it lands with the bytes of the
group poisoned, 1,280 of its bytes from a free place on. -/
def State.badGroup (s : State) (n h : Nat) (skid : Bool) (c : Coming) : State :=
  let (k, t) := s.fresh
  let o := 256 * (Config.beatLands k % 24)
  let p : Poison := ⟨9, 6 * 2 ^ 36 + h * 2 ^ 31⟩
  match c with
  | .beat id trig j => t.modCore id (fun c => c.modXfer trig (fun x => if skid then { x with data := mset x.data j ((t.awayChunk (x.blen j)).spoilt o p) } else x.lose [j]))
  | .recv handle rank at_ => t.modRgn n (fun r => r.modRank handle rank (fun k => { k with bad := mset k.bad at_ (if skid then some (o, p) else none) }))
  | .copy handle rank i => t.modRgn n (fun r => r.modRank handle rank (fun k => { k with writes := k.writes.modify i (fun w =>
      if skid then { w with chunk := w.chunk.spoilt o p } else { w with chunk := {}, fl := 0 }) }))

/-- What of it has a flit in the group: which of the candidates have is open, for this package does not hold what the other sends: a free value for each
(log entry 30). -/
def State.inGroup (s : State) (r : Region) (h : Nat) : List (Coming × Nat) :=
  let l := s.coming r h
  ((List.range l.length).filter (Config.inGroup s.free)).filterMap (fun i => l[i]?)
/-- INTEGRITY for one region that crosses a port, when something of it has a flit in the group (R389): stamped with the first landing in containment
mode, and with the last one and 6 in skid mode. -/
def State.integrity (s : State) (n h ctr : Nat) (skid : Bool) : State :=
  let r := s.rgn n
  let hit := s.inGroup r h
  let t := hit.foldl (fun t q => t.badGroup n h skid q.1) s.fresh.2
  match hit with
  | [] => t
  | q :: _ => t.raiseOutside n (r.d.coreAt 0) (if skid then hit.foldl (fun m q => max m q.2) 0 + 6 else hit.foldl (fun m q => min m q.2) q.2)
      { code := 0x51, w5 := h, w6 := ctr, w7 := if skid then 1 else 0 }

/-- FABRIC_GROUP_RECEIVE: the tag of a group of five flits of 256 bytes on a protected direction is checked; where it fails, what it carried for the
regions that cross the port is void or poisoned, and they get INTEGRITY (R388, R389). -/
def runGroup (h : Nat) (data : List Byte) (tag : BitVec 96) (s : State) : State :=
  let p := s.port h
  if !p.up || !p.prot || data.length != 1280 then s
  else
    let s1 := (s.modPort h (fun p => { p with ctrIn := p.ctrIn + 1 })).counted h true (p.ctrIn + 1)
    if p.tagGood ((s.partnerOf h).2 % 24) data tag then s1
    else (s.portUsers h).foldl (fun t n => t.integrity n h p.ctrIn p.skid) s1

/-- The groups that a protected direction has begun after `c` cycles: three flits a cycle, five flits a group (R379, R388). -/
def groupsBy (c : Nat) : Nat := 3 * c / 5
/-- The bytes of the beats that leave by a port in the present stitch of their regions: those of sends whose route goes out by it, `Route.outs` stitches
after their trigger (R303, R383). -/
def State.leaving (s : State) (h : Nat) : List Byte :=
  s.regions.flatMap (fun q =>
    let r := q.2
    if r.d.state ≠ 2 then []
    else r.d.coreIds.flatMap (fun id => (s.core id).xf.xfers.flatMap (fun x =>
      match (mget r.routes x.route).bind (fun e => if x.kind = .send ∧ e.on then (e.outs r.d).find? (fun o => o.1 == 2 ^ 16 + 2 * h) else none) with
      | some o => if x.trig + o.2 ≤ r.clk.sc ∧ !x.gone.contains (r.clk.sc - (x.trig + o.2)) then ((mget x.data (r.clk.sc - (x.trig + o.2))).elim [] Chunk.bytes) else []
      | none => [])))
/-- The tag of the group that a port sends next (R388), over its flits: how those of the beats that leave stand in them beside idle ones is a free value
(log entry 30). -/
def Port.tagOut (p : Port) (h : Nat) (leave : List Byte) : BitVec 96 :=
  match p.actOut with
  | some k => gcmTag k (groupIv h p.epochOut p.ctrOut) (toBytesMsb 8 (p.ctrOut % 2 ^ 64)) (Config.groupFlits h p.ctrOut leave)
  | none => 0
/-- A cycle passes: the protected directions that send do so with their tags, and their group counters advance. -/
def State.sendGroups (s : State) : State :=
  (s.ports.filter (fun q => q.2.up && q.2.prot && q.2.actOut.isSome && decide (groupsBy s.pcyc < groupsBy (s.pcyc + 1)))).foldl (fun t q =>
    ((t.send (.group q.1 q.2.ctrOut (q.2.tagOut q.1 (s.leaving q.1)))).modPort q.1 (fun p => { p with ctrOut := p.ctrOut + 1 })).counted q.1 false (q.2.ctrOut + 1)) s

/-- Is a service processor in service? -/
def Boot.serves (b : Boot) : Bool := b.west.serving || b.east.serving
/-- Has a service processor in service a secured session open (R390, R397)? -/
def Boot.secured (b : Boot) : Bool := (b.west.serving && b.west.session) || (b.east.serving && b.east.session)
/-- KEY_INSTALL: a service processor in service, to which a secured session has brought a key, puts it into the next slot of a port direction, with the
group at which both ends have agreed to take it; with the rail off none is kept (R390, R398). -/
def runKeyInstall (h : Nat) (inward : Bool) (k : NextKey) (s : State) : State :=
  if 24 ≤ h ∨ s.boot.rail = false ∨ s.boot.secured = false then s
  else s.modPort h (fun p => if inward then { p with nextIn := some k.key, atIn := k.agreed } else { p with nextOut := some k.key, atOut := k.agreed })

/-! ## Boot (R394 to R396) -/

/-- A field of the header of a firmware image. -/
def imgNum (img : List Byte) (o n : Nat) : Nat := ofBytes ((img.drop o).take n)
/-- The image as its LENGTH gives it. -/
def imgWhole (img : List Byte) : List Byte := img.take (imgNum img 8 8)
/-- Does the ROM accept an image (R394)? Its numbers are little-endian (spec/00_scope.md R6; log entry 10). -/
def Boot.accepts (b : Boot) (img : List Byte) : Bool :=
  let m := (img.drop 16).take 384
  let whole := imgWhole img
  let bare := whole.take 400 ++ List.replicate 384 0 ++ whole.drop 784
  imgNum img 0 4 == 0xb096f1a0 && decide (1024 ≤ imgNum img 8 8) && decide (imgNum img 8 8 ≤ img.length) && (img.drop 784).take 240 == List.replicate 240 0 &&
    sha256 m == b.keyHash && decide (b.minSvn ≤ imgNum img 4 4) && pssVerify (imgNum img 16 384) (imgNum img 400 384) (sha256 bare)

/-- The numbers that measurements 4 and 5 cover (R397): the maps in force, and the mode and epochs of each port. -/
def Maps.numbers (m : Maps) : List Nat :=
  [(m.darned.map (fun u => u + 1)).getD 0] ++ m.retired.flatMap (fun q => [q.1, q.2]) ++ m.hmap.toList ++ m.excluded ++ m.remote.flatMap (fun q => [q.1, q.2.1, q.2.2]) ++
    m.halves.flatMap (fun q => [q.1, if q.2 then 1 else 0]) ++ m.banks.flatMap (fun q => [q.1, q.2]) ++ m.seams.flatMap (fun q => [q.1, q.2])
def portNumbers (ps : Map Port) : List Nat := ps.flatMap (fun q => [q.1, if q.2.prot then 1 else 0, if q.2.skid then 1 else 0, q.2.epochIn, q.2.epochOut])
/-- A measurement by its index (R397). -/
def State.measurement (s : State) (n : Nat) : BitVec 256 :=
  match n with
  | 1 => Config.romDigest
  | 2 => mgetD s.boot.measure 2 0
  | 3 => sha256 (Config.measureBytes 3 [s.boot.minSvn, s.boot.keyHash.toNat])
  | 4 => sha256 (Config.measureBytes 4 s.maps.numbers)
  | _ => sha256 (Config.measureBytes 5 (portNumbers s.ports))

/-- A service processor that has gone through its steps is in service. -/
def Sp.booted : Sp := { serving := true, boot := 8 }
/-- What starts when the package has become ready: the scheduler's heartbeat, and launch records that wait. -/
def State.started (s : State) : State :=
  if s.boot.ready then ((({ s with sched := { s.sched with beat := s.pcyc } }).atCycle (s.pcyc + 2 ^ 20) .heartbeat).laterOnce .launchRecordAccept).laterOnce .placement else s

/-- A side's service processor, and the image that is delivered to it. -/
def Boot.sp (b : Boot) (side : Side) : Sp := match side with | .west => b.west | .east => b.east
def Boot.setSp (b : Boot) (side : Side) (p : Sp) : Boot := match side with | .west => { b with west := p } | .east => { b with east := p }
def Boot.delivered (b : Boot) (side : Side) : List Byte := match side with | .west => b.image | .east => b.imageEast
def otherSide (side : Side) : Side := match side with | .west => .east | .east => .west

/-- A service processor verifies the image delivered to it and boots, or waits for the recovery image (R394, R395). Measurement 2 is of the image
verified (R397). -/
def Boot.bootSp (b : Boot) (side : Side) : Boot :=
  let img := b.delivered side
  if b.accepts img then { b.setSp side Sp.booted with verified := true, good := img, measure := mset b.measure 2 (sha256 (imgWhole img)) }
  else b.setSp side { boot := 2 }

/-- The sections of an image from byte 1,024 on, by type, offset and length (R394): those before the first entry of another type than 1 to 3. -/
def sectionsGo : Nat → List Byte → List (Nat × Nat × Nat)
  | 0, _ => []
  | n + 1, l => let q := Config.sectionEntry (l.take 16); if 1 ≤ q.1 ∧ q.1 ≤ 3 then q :: sectionsGo n (l.drop 16) else []
def imgSections (img : List Byte) : List (Nat × Nat × Nat) := sectionsGo ((img.length - 1024) / 16) ((imgWhole img).drop 1024)
/-- Step 7 of the boot: the host firmware of the verified image is loaded into far memory (R394, R395). -/
def State.loadFirmware (s : State) : State :=
  let l := (imgSections s.boot.good).filter (fun q => q.1 == 2)
  (List.range l.length).foldl (fun t i =>
    match l[i]? with
    | some q => (t.writeFpa (Config.firmwareAt i) ((s.boot.good.drop q.2.1).take q.2.2) 6 s.dieIdent).getD t
    | none => t) s
/-- Steps 3 to 7 of the boot, made by the service processors in service (R395): the ports that training has brought up; the repairs of what it and the
self test have found, by the vote on the maps, without whose majority no region is launched; and the host firmware, without which the host is out of
service. -/
def State.bringUp (s : State) (rep : BootReport) : State :=
  let s1 := rep.ports.foldl (fun t q => runTraining q.1 q.2.1 q.2.2.1 q.2.2.2 t) s
  let s2 := if rep.majority then rep.repairs.foldl State.act s1 else { s1 with boot := { s1.boot with barred := true } }
  if rep.host then s2.loadFirmware else { s2 with boot := { s2.boot with hostOut := true } }
/-- The first step of a service processor: one that fails its self test leaves service; else it goes on to verify its image (R395). -/
def Boot.stepOne (b : Boot) (side : Side) (ok : Bool) : Boot := if ok then b.bootSp side else b.setSp side { boot := 1 }

/-- SERVICE_RAIL_ON: each service processor boots from the image that the management controller delivers to it from the board's flash, if its self test
passes and the ROM accepts the image, and otherwise asks for the recovery image; then the package is brought up (R395). -/
def runRailOn (s : State) : State :=
  if s.boot.rail then s
  else
    let rep := s.boot.finds
    let t : State := { s with boot := (({ s.boot with rail := true, verified := false }).stepOne .west rep.west).stepOne .east rep.east }
    (if t.boot.serves then t.bringUp rep else t).started

/-- RECOVERY_PROVISION: a service processor that waits for the recovery image boots from the image that its peer has verified; with none, it leaves
service (R395, R396). -/
def runProvision (side : Side) (s : State) : State :=
  if (s.boot.sp side).boot ≠ 2 then s
  else
    let good := (s.boot.sp (otherSide side)).boot == 8 && s.boot.verified && s.boot.accepts s.boot.good
    ({ s with boot := s.boot.setSp side (if good then Sp.booted else { boot := 1 }) }).started

/-- Is an event the package's own, queued by one of its units? -/
def ownEvent (i : Instr) : Bool :=
  match i with
  | .unpick _ _ | .rollback _ | .thaw _ | .preemptSave _ | .placement | .regionRelease _ | .scheduleEnd _ | .coreRetire _ _ _ _ | .channelSwap _ _ | .bridgeHalfRemap _ _
  | .columnDarn _ | .remoteDarn _ _ _ | .hDieDarnInService _ | .hDieDarn _ | .controlDieLoss _ | .neighbourVoteTimeout | .groupRebuild _ | .schedulerTakeover
  | .launchRecordAccept | .restore _ | .regionLoad _ | .purgeComplete _ | .purgeTimeout _ | .unpickSweepEnd _ | .heartbeat | .tackPacket _ _ | .translationWalk _ _ _
  | .planSetup _ _ | .planFree _ | .preemptCommand _ | .cancel _ | .counterExhausted _ _ => true
  | _ => false

/-- SERVICE_RAIL_OFF: every region, key and map is lost, and all volatile state with them (R390, R398). The fuses, the board's flash, the clock, what is
still to come from outside, and what has already left the package stay. -/
def runRailOff (s : State) : State :=
  { State.reset with
    boot := { State.reset.boot with keyHash := s.boot.keyHash, minSvn := s.boot.minSvn, image := s.boot.image, imageEast := s.boot.imageEast, finds := s.boot.finds }
    out := s.out, pcyc := s.pcyc, free := s.free, inputs := s.inputs.filter (fun q => !ownEvent q.2) }

/-- SVN_RAISE: the fused minimum only rises, and only by a command that a service processor takes (R394). -/
def runSvn (svn : BitVec 32) (s : State) : State :=
  if s.boot.serves then { s with boot := { s.boot with minSvn := max s.boot.minSvn svn.toNat } } else s

/-- A signature of the device identity key goes out (R397). -/
def State.signed (s : State) : State := let (n, t) := s.fresh; t.send (.signature (Config.identitySign n))
/-- The measurements that an index asks for (R397): one, or all of them for index 255. -/
def State.measured (s : State) (n : Nat) : Option (List (BitVec 256)) :=
  if 1 ≤ n ∧ n ≤ 5 then some [s.measurement n] else if n = 255 then some ((List.range 5).map (fun i => s.measurement (i + 1))) else none
/-- ATTESTATION_REQUEST: what a service processor in service answers to SPDM (R397): measurements; the certificate chain of slot 0; a signature of the
device identity key; its share of a key exchange, which opens a secured session, or the end of that; anything else is only reported (log entry 39). -/
def runAttest (side : Side) (req : SpdmReq) (s : State) : State :=
  let p := s.boot.sp side
  if !p.serving then s
  else match req with
    | .measurements n signed => match s.measured n with
      | some l => if signed then (s.send (.attest l)).signed else s.send (.attest l)
      | none => s.send (.report 9 n)
    | .certificate n => if n = 0 then s.send (.chain Config.certChain) else s.send (.report 9 n)
    | .challenge n => if n = 0 then s.signed else s.send (.report 9 n)
    | .keyExchange _ =>
      let (n, t) := s.fresh
      (({ t with boot := t.boot.setSp side { p with session := true } } : State).send (.share (Config.exchangeShare n))).signed
    | .endSession => { s with boot := s.boot.setSp side { p with session := false } }
    | .other n => s.send (.report 9 n)

/-! ## Power and cooling (R398 to R400) -/

/-- A region at the limit of ease, or on a die at 105 degrees, gets a pre-emption request, or is unpicked with reason 5 where it has no save area. -/
def State.thermal (s : State) (rg : Nat) : State :=
  let r := s.rgn rg
  if r.d.state ≠ 2 ∧ r.d.state ≠ 3 then s else if r.d.save = 0 then (s.msi 5 rg).unpick rg 5 else runPreempt rg (s.msi 5 rg)

/-- The regions that run or are held on the die with an id, or on every die where it is the package's power that exceeds its limit (R400). -/
def State.onHot (s : State) (hot : Option Nat) : List Nat :=
  (match hot with | some u => s.usersOf u | none => s.regionsThat (fun _ => true)).filter (fun n => (s.rgn n).d.state == 2 || (s.rgn n).d.state == 3)
/-- THERMAL_PREEMPT: the regions on a die at 105 degrees. -/
def runThermal (unit : Nat) (s : State) : State := (s.onHot (some unit)).foldl State.thermal s

/-- Set the ease of a held region and let it go on (R53); the other packages of a region learn its factor (spec/02_stitch_time.md R54). -/
def State.setEase (s : State) (n e : Nat) : State := ((s.modRgn n (fun r => { r with d := { r.d with ease := e } })).tellParts (s.rgn n).d 14 n).spThaw n

/-- EASE_UP: k + 1 for the regions on a hot die, or on every die, through a DEBUG hold; a region already at k = 8 is pre-empted or unpicked (R400). -/
def runEaseUp (hot : Option Nat) (s : State) : State :=
  let l := s.onHot hot
  let more := l.filter (fun n => (s.rgn n).d.ease < 7)
  s.whenHeld more (.easeUp hot) (fun t =>
    (l.filter (fun n => 7 ≤ (s.rgn n).d.ease)).foldl State.thermal (more.foldl (fun t n => t.setEase n ((t.rgn n).d.ease + 1)) (if more.isEmpty then t else t.msi 5 0)))

/-- EASE_DOWN: k - 1 for the regions on a die that has cooled, or on every die, down to the factor that repairs and the fabric require (R400, R53, R384). -/
def runEaseDown (cool : Option Nat) (s : State) : State :=
  let l := (s.onHot cool).filter (fun n => decide (s.loadK (s.rgn n) ≤ (s.rgn n).d.ease))
  if l.isEmpty then s else s.whenHeld l (.easeDown cool) (fun t => l.foldl (fun t n => t.setEase n ((t.rgn n).d.ease - 1)) (t.msi 5 0))

/-- COOLANT_FAULT: the management controller removes the service rail (R400). -/
def runCoolant (s : State) : State := runRailOff (s.msi 5 0)

end Sys2Proof.Machine
end

