-- ==== Sys2Proof/Machine/LinkEvents.lean ====
section
/-! DEFINITION. Meanings: Events of the fabric ports, of boot and of power (spec/18_links_host_boot.md R380 to R400). -/
namespace Sys2Proof.Machine

/-- LINK_DOWN (R386): A fabric link goes down and holds the regions that cross it with DATA_UNCORRECTABLE class 13. -/
def execLinkDown (port : Nat) (s : State) : Out := .next (runLinkDown port s)

/-- LINK_TRAINING (R381): A fabric link is trained, and its latency is fixed as Lfab. -/
def execLinkTraining (port : Nat) (lat : Nat) (skid : Bool) (prot : Bool) (s : State) : Out := .next (runTraining port lat skid prot s)

/-- SYNC_PULSE (R380): A rack sync pulse every 2^20 cycles aligns PCYC; a package that loses alignment takes its links down. -/
def execSyncPulse (aligned : Bool) (s : State) : Out := .next (runSync aligned s)

/-- FABRIC_GROUP_RECEIVE (R389): A received five-flit group's integrity tag is checked. -/
def execFabricGroupReceive (port : Nat) (data : List (BitVec 8)) (tag : BitVec 96) (s : State) : Out := .next (runGroup port data tag s)

/-- KEY_INSTALL (R390): A service processor installs a key into a port direction's next slot. -/
def execKeyInstall (port : Nat) (inward : Bool) (key : NextKey) (s : State) : Out := .next (runKeyInstall port inward key s)

/-- KEY_SWITCH (R390): At the agreed group counter the active key switches and the epoch advances. -/
def execKeySwitch (port : Nat) (inward : Bool) (s : State) : Out := .next (runKeySwitch port inward s)

/-- COUNTER_EXHAUSTED (R390): A direction's group counter reaches 2^40, and its link goes down. -/
def execCounterExhausted (port : Nat) (inward : Bool) (s : State) : Out := .next (runExhausted port inward s)

/-- SERVICE_RAIL_ON (R395): The service rail comes on and each service processor runs its boot sequence. -/
def execServiceRailOn (s : State) : Out := .next (runRailOn s)

/-- RECOVERY_PROVISION (R396): The management controller re-provisions a service processor from the image its peer verified. -/
def execRecoveryProvision (side : Side) (s : State) : Out := .next (runProvision side s)

/-- SERVICE_RAIL_OFF (R398): Removing the service rail loses every region, key and map. -/
def execServiceRailOff (s : State) : Out := .next (runRailOff s)

/-- SVN_RAISE (R394): An operator command through SPDM raises the fused minimum SVN. -/
def execSvnRaise (svn : BitVec 32) (s : State) : Out := .next (runSvn svn s)

/-- ATTESTATION_REQUEST (R397): A service processor answers an SPDM request with measurements or a secured session. -/
def execAttestationRequest (side : Side) (req : SpdmReq) (s : State) : Out := .next (runAttest side req s)

/-- EASE_UP (R400): Temperature or power exceeds its limit for 10 ms, so ease is raised through a DEBUG hold. -/
def execEaseUp (hot : Option Nat) (s : State) : Out := .next (runEaseUp hot s)

/-- EASE_DOWN (R400): The package is below its limits for 1 s, so ease is lowered. -/
def execEaseDown (cool : Option Nat) (s : State) : Out := .next (runEaseDown cool s)

/-- THERMAL_PREEMPT (R400): At 105 °C, or with a region already at k = 8, the region is pre-empted or unpicked. -/
def execThermalPreempt (unit : Nat) (s : State) : Out := .next (runThermal unit s)

/-- COOLANT_FAULT (R400): At 115 °C, or after 1 s of low coolant, the service rail is removed. -/
def execCoolantFault (s : State) : Out := .next (runCoolant s)

end Sys2Proof.Machine
end

