-- ==== Sys2Proof/Machine/LsMoves.lean ====
section
/-! DEFINITION. Meanings: triggers of ls (R184 to R191). Each is the shared effect of its move (Moves.lean). -/
namespace Sys2Proof.Machine

/-- LS_LD8 (R185): Load a sign-extended byte. -/
def execLsLd8 (p : Bool) (src : Src) (e : Bool) (s : State) : Out := .next (runMove (.transport src (.trig (.ls .ld8)) false 0 false (modBits false false p) e) s)

/-- LS_LD8U (R185): Load a zero-extended byte. -/
def execLsLd8u (p : Bool) (src : Src) (e : Bool) (s : State) : Out := .next (runMove (.transport src (.trig (.ls .ld8u)) false 0 false (modBits false false p) e) s)

/-- LS_LD16 (R185): Load a sign-extended halfword. -/
def execLsLd16 (p : Bool) (src : Src) (e : Bool) (s : State) : Out := .next (runMove (.transport src (.trig (.ls .ld16)) false 0 false (modBits false false p) e) s)

/-- LS_LD16U (R185): Load a zero-extended halfword. -/
def execLsLd16u (p : Bool) (src : Src) (e : Bool) (s : State) : Out := .next (runMove (.transport src (.trig (.ls .ld16u)) false 0 false (modBits false false p) e) s)

/-- LS_LD32 (R185): Load a sign-extended word. -/
def execLsLd32 (p : Bool) (src : Src) (e : Bool) (s : State) : Out := .next (runMove (.transport src (.trig (.ls .ld32)) false 0 false (modBits false false p) e) s)

/-- LS_LD32U (R185): Load a zero-extended word. -/
def execLsLd32u (p : Bool) (src : Src) (e : Bool) (s : State) : Out := .next (runMove (.transport src (.trig (.ls .ld32u)) false 0 false (modBits false false p) e) s)

/-- LS_LD64 (R185): Load 8 bytes. -/
def execLsLd64 (p : Bool) (src : Src) (e : Bool) (s : State) : Out := .next (runMove (.transport src (.trig (.ls .ld64)) false 0 false (modBits false false p) e) s)

/-- LS_LD256 (R185): Load 256 bytes. -/
def execLsLd256 (p : Bool) (src : Src) (e : Bool) (s : State) : Out := .next (runMove (.transport src (.trig (.ls .ld256)) false 0 false (modBits false false p) e) s)

/-- LS_ST8 (R186): Store a byte. -/
def execLsSt8 (p : Bool) (src : Src) (e : Bool) (s : State) : Out := .next (runMove (.transport src (.trig (.ls .st8)) false 0 false (modBits false false p) e) s)

/-- LS_ST16 (R186): Store a halfword. -/
def execLsSt16 (p : Bool) (src : Src) (e : Bool) (s : State) : Out := .next (runMove (.transport src (.trig (.ls .st16)) false 0 false (modBits false false p) e) s)

/-- LS_ST32 (R186): Store a word. -/
def execLsSt32 (p : Bool) (src : Src) (e : Bool) (s : State) : Out := .next (runMove (.transport src (.trig (.ls .st32)) false 0 false (modBits false false p) e) s)

/-- LS_ST64 (R186): Store 8 bytes. -/
def execLsSt64 (p : Bool) (src : Src) (e : Bool) (s : State) : Out := .next (runMove (.transport src (.trig (.ls .st64)) false 0 false (modBits false false p) e) s)

/-- LS_ST256 (R187): Store 256 bytes, optionally masked by 32-bit groups. -/
def execLsSt256 (p : Bool) (z : Bool) (k : BitVec 3) (q : Bool) (src : Src) (e : Bool) (s : State) : Out := .next (runMove (.transport src (.trig (.ls .st256)) q k z (modBits false false p) e) s)

/-- LS_AADD (R189): Scratchpad atomic add. -/
def execLsAadd (w : Bool) (p : Bool) (src : Src) (e : Bool) (s : State) : Out := .next (runMove (.transport src (.trig (.ls .aadd)) false 0 false (modBits false w p) e) s)

/-- LS_AAND (R189): Scratchpad atomic AND. -/
def execLsAand (w : Bool) (p : Bool) (src : Src) (e : Bool) (s : State) : Out := .next (runMove (.transport src (.trig (.ls .aand)) false 0 false (modBits false w p) e) s)

/-- LS_AOR (R189): Scratchpad atomic OR. -/
def execLsAor (w : Bool) (p : Bool) (src : Src) (e : Bool) (s : State) : Out := .next (runMove (.transport src (.trig (.ls .aor)) false 0 false (modBits false w p) e) s)

/-- LS_AXOR (R189): Scratchpad atomic XOR. -/
def execLsAxor (w : Bool) (p : Bool) (src : Src) (e : Bool) (s : State) : Out := .next (runMove (.transport src (.trig (.ls .axor)) false 0 false (modBits false w p) e) s)

/-- LS_AMIN (R189): Scratchpad atomic signed minimum. -/
def execLsAmin (w : Bool) (p : Bool) (src : Src) (e : Bool) (s : State) : Out := .next (runMove (.transport src (.trig (.ls .amin)) false 0 false (modBits false w p) e) s)

/-- LS_AMAX (R189): Scratchpad atomic signed maximum. -/
def execLsAmax (w : Bool) (p : Bool) (src : Src) (e : Bool) (s : State) : Out := .next (runMove (.transport src (.trig (.ls .amax)) false 0 false (modBits false w p) e) s)

/-- LS_AMINU (R189): Scratchpad atomic unsigned minimum. -/
def execLsAminu (w : Bool) (p : Bool) (src : Src) (e : Bool) (s : State) : Out := .next (runMove (.transport src (.trig (.ls .aminu)) false 0 false (modBits false w p) e) s)

/-- LS_AMAXU (R189): Scratchpad atomic unsigned maximum. -/
def execLsAmaxu (w : Bool) (p : Bool) (src : Src) (e : Bool) (s : State) : Out := .next (runMove (.transport src (.trig (.ls .amaxu)) false 0 false (modBits false w p) e) s)

/-- LS_AXCHG (R189): Scratchpad atomic exchange. -/
def execLsAxchg (w : Bool) (p : Bool) (src : Src) (e : Bool) (s : State) : Out := .next (runMove (.transport src (.trig (.ls .axchg)) false 0 false (modBits false w p) e) s)

/-- LS_ACAS (R189): Scratchpad atomic compare and swap. -/
def execLsAcas (w : Bool) (p : Bool) (src : Src) (e : Bool) (s : State) : Out := .next (runMove (.transport src (.trig (.ls .acas)) false 0 false (modBits false w p) e) s)

/-- LS_AFADD (R189): Scratchpad atomic FP32 add. -/
def execLsAfadd (p : Bool) (src : Src) (e : Bool) (s : State) : Out := .next (runMove (.transport src (.trig (.ls .afadd)) false 0 false (modBits false false p) e) s)

/-- LS_AFMIN (R189): Scratchpad atomic FP32 minimum. -/
def execLsAfmin (p : Bool) (src : Src) (e : Bool) (s : State) : Out := .next (runMove (.transport src (.trig (.ls .afmin)) false 0 false (modBits false false p) e) s)

/-- LS_AFMAX (R189): Scratchpad atomic FP32 maximum. -/
def execLsAfmax (p : Bool) (src : Src) (e : Bool) (s : State) : Out := .next (runMove (.transport src (.trig (.ls .afmax)) false 0 false (modBits false false p) e) s)

/-- LS_LD8_SHORT (R185): Short form of ls.ld8. -/
def execLsLd8Short (src : ShortSrc) (e : Bool) (s : State) : Out := .next (runMove (.short src (.trig (.ls .ld8)) e) s)

/-- LS_LD8U_SHORT (R185): Short form of ls.ld8u. -/
def execLsLd8uShort (src : ShortSrc) (e : Bool) (s : State) : Out := .next (runMove (.short src (.trig (.ls .ld8u)) e) s)

/-- LS_LD16_SHORT (R185): Short form of ls.ld16. -/
def execLsLd16Short (src : ShortSrc) (e : Bool) (s : State) : Out := .next (runMove (.short src (.trig (.ls .ld16)) e) s)

/-- LS_LD16U_SHORT (R185): Short form of ls.ld16u. -/
def execLsLd16uShort (src : ShortSrc) (e : Bool) (s : State) : Out := .next (runMove (.short src (.trig (.ls .ld16u)) e) s)

/-- LS_LD32_SHORT (R185): Short form of ls.ld32. -/
def execLsLd32Short (src : ShortSrc) (e : Bool) (s : State) : Out := .next (runMove (.short src (.trig (.ls .ld32)) e) s)

/-- LS_LD32U_SHORT (R185): Short form of ls.ld32u. -/
def execLsLd32uShort (src : ShortSrc) (e : Bool) (s : State) : Out := .next (runMove (.short src (.trig (.ls .ld32u)) e) s)

/-- LS_LD64_SHORT (R185): Short form of ls.ld64. -/
def execLsLd64Short (src : ShortSrc) (e : Bool) (s : State) : Out := .next (runMove (.short src (.trig (.ls .ld64)) e) s)

/-- LS_LD256_SHORT (R185): Short form of ls.ld256. -/
def execLsLd256Short (src : ShortSrc) (e : Bool) (s : State) : Out := .next (runMove (.short src (.trig (.ls .ld256)) e) s)

/-- LS_ST8_SHORT (R186): Short form of ls.st8. -/
def execLsSt8Short (src : ShortSrc) (e : Bool) (s : State) : Out := .next (runMove (.short src (.trig (.ls .st8)) e) s)

/-- LS_ST16_SHORT (R186): Short form of ls.st16. -/
def execLsSt16Short (src : ShortSrc) (e : Bool) (s : State) : Out := .next (runMove (.short src (.trig (.ls .st16)) e) s)

/-- LS_ST32_SHORT (R186): Short form of ls.st32. -/
def execLsSt32Short (src : ShortSrc) (e : Bool) (s : State) : Out := .next (runMove (.short src (.trig (.ls .st32)) e) s)

/-- LS_ST64_SHORT (R186): Short form of ls.st64. -/
def execLsSt64Short (src : ShortSrc) (e : Bool) (s : State) : Out := .next (runMove (.short src (.trig (.ls .st64)) e) s)

/-- LS_ST256_SHORT (R186): Short form of ls.st256, unmasked. -/
def execLsSt256Short (src : ShortSrc) (e : Bool) (s : State) : Out := .next (runMove (.short src (.trig (.ls .st256)) e) s)

/-- LS_AADD_SHORT (R189): Short form of ls.aadd, 4 bytes. -/
def execLsAaddShort (src : ShortSrc) (e : Bool) (s : State) : Out := .next (runMove (.short src (.trig (.ls .aadd)) e) s)

end Sys2Proof.Machine
end

