-- ==== Sys2Proof/Machine/MxMoves.lean ====
section
/-! DEFINITION. Meanings: triggers of mx (spec/09_matrix_ops.md R221 to R234). Each is the shared effect of its move (Moves.lean). -/
namespace Sys2Proof.Machine

/-- MX_MMA (R227): Dense matrix multiply-accumulate into a tile over S steps. -/
def execMxMma (src : Src) (e : Bool) (s : State) : Out := .next (runMove (.transport src (.trig (.mx .mma)) false 0 false 0 e) s)

/-- MX_MMAS (R229): 2:4 sparse matrix multiply-accumulate. -/
def execMxMmas (src : Src) (e : Bool) (s : State) : Out := .next (runMove (.transport src (.trig (.mx .mmas)) false 0 false 0 e) s)

/-- MX_ZERO (R231): Zero a tile. -/
def execMxZero (src : Src) (e : Bool) (s : State) : Out := .next (runMove (.transport src (.trig (.mx .zero)) false 0 false 0 e) s)

/-- MX_RROW (R231): Read a tile row into mx.r. -/
def execMxRrow (src : Src) (e : Bool) (s : State) : Out := .next (runMove (.transport src (.trig (.mx .rrow)) false 0 false 0 e) s)

/-- MX_RCOL (R231): Read a tile column into mx.r. -/
def execMxRcol (src : Src) (e : Bool) (s : State) : Out := .next (runMove (.transport src (.trig (.mx .rcol)) false 0 false 0 e) s)

/-- MX_WROW (R231): Write a tile row from a v register. -/
def execMxWrow (src : Src) (e : Bool) (s : State) : Out := .next (runMove (.transport src (.trig (.mx .wrow)) false 0 false 0 e) s)

/-- MX_WCOL (R231): Write a tile column from a v register. -/
def execMxWcol (src : Src) (e : Bool) (s : State) : Out := .next (runMove (.transport src (.trig (.mx .wcol)) false 0 false 0 e) s)

/-- MX_LOAD (R232): Load a tile from the scratchpad, row by row. -/
def execMxLoad (src : Src) (e : Bool) (s : State) : Out := .next (runMove (.transport src (.trig (.mx .load)) false 0 false 0 e) s)

/-- MX_STORE (R232): Store a tile to the scratchpad, row by row. -/
def execMxStore (src : Src) (e : Bool) (s : State) : Out := .next (runMove (.transport src (.trig (.mx .store)) false 0 false 0 e) s)

/-- MX_COMMIT (R233): Close the uncommitted mx operations into group g. -/
def execMxCommit (src : Src) (e : Bool) (s : State) : Out := .next (runMove (.transport src (.trig (.mx .commit)) false 0 false 0 e) s)

/-- MX_WAIT (R233): Assert that mx group g is complete. -/
def execMxWait (src : Src) (e : Bool) (s : State) : Out := .next (runMove (.transport src (.trig (.mx .wait)) false 0 false 0 e) s)

/-- MX_STATUS (R234): Land the engine state in mx.r. -/
def execMxStatus (src : Src) (e : Bool) (s : State) : Out := .next (runMove (.transport src (.trig (.mx .status)) false 0 false 0 e) s)

/-- MX_MMA_SHORT (R227): Short form of mx.mma. -/
def execMxMmaShort (src : ShortSrc) (e : Bool) (s : State) : Out := .next (runMove (.short src (.trig (.mx .mma)) e) s)

/-- MX_MMAS_SHORT (R229): Short form of mx.mmas. -/
def execMxMmasShort (src : ShortSrc) (e : Bool) (s : State) : Out := .next (runMove (.short src (.trig (.mx .mmas)) e) s)

/-- MX_ZERO_SHORT (R231): Short form of mx.zero. -/
def execMxZeroShort (src : ShortSrc) (e : Bool) (s : State) : Out := .next (runMove (.short src (.trig (.mx .zero)) e) s)

/-- MX_RROW_SHORT (R231): Short form of mx.rrow. -/
def execMxRrowShort (src : ShortSrc) (e : Bool) (s : State) : Out := .next (runMove (.short src (.trig (.mx .rrow)) e) s)

/-- MX_RCOL_SHORT (R231): Short form of mx.rcol. -/
def execMxRcolShort (src : ShortSrc) (e : Bool) (s : State) : Out := .next (runMove (.short src (.trig (.mx .rcol)) e) s)

/-- MX_WROW_SHORT (R231): Short form of mx.wrow. -/
def execMxWrowShort (src : ShortSrc) (e : Bool) (s : State) : Out := .next (runMove (.short src (.trig (.mx .wrow)) e) s)

/-- MX_WCOL_SHORT (R231): Short form of mx.wcol. -/
def execMxWcolShort (src : ShortSrc) (e : Bool) (s : State) : Out := .next (runMove (.short src (.trig (.mx .wcol)) e) s)

/-- MX_LOAD_SHORT (R232): Short form of mx.load. -/
def execMxLoadShort (src : ShortSrc) (e : Bool) (s : State) : Out := .next (runMove (.short src (.trig (.mx .load)) e) s)

/-- MX_STORE_SHORT (R232): Short form of mx.store. -/
def execMxStoreShort (src : ShortSrc) (e : Bool) (s : State) : Out := .next (runMove (.short src (.trig (.mx .store)) e) s)

/-- MX_COMMIT_SHORT (R233): Short form of mx.commit. -/
def execMxCommitShort (src : ShortSrc) (e : Bool) (s : State) : Out := .next (runMove (.short src (.trig (.mx .commit)) e) s)

/-- MX_WAIT_SHORT (R233): Short form of mx.wait. -/
def execMxWaitShort (src : ShortSrc) (e : Bool) (s : State) : Out := .next (runMove (.short src (.trig (.mx .wait)) e) s)

/-- MX_STATUS_SHORT (R234): Short form of mx.status. -/
def execMxStatusShort (src : ShortSrc) (e : Bool) (s : State) : Out := .next (runMove (.short src (.trig (.mx .status)) e) s)

end Sys2Proof.Machine
end

