-- ==== Sys2Proof/Machine/PlainMoves.lean ====
section
/-! DEFINITION. Meanings: plain moves, idle moves and nops (spec/06_encoding.md R146 to R153). Each is the shared effect of its move (Moves.lean). -/
namespace Sys2Proof.Machine

/-- TRANSPORT_MOVE (R151): A move carries a source to a register or operand port. -/
def execTransportMove (d : PlainDst) (src : Src) (e : Bool) (s : State) : Out := .next (runMove (.transport src (.plain d) false 0 false 0 e) s)

/-- SHORT_TRANSPORT_MOVE (R147): A 16-bit move carries a g register or a latch to a register or port. -/
def execShortTransportMove (d : ShortDst) (src : ShortSrc) (e : Bool) (s : State) : Out := .next (runMove (.short src (.plain d) e) s)

/-- IMMEDIATE_MOVE (R152): A move writes a sign-extended 16-bit immediate to DST. -/
def execImmediateMove (d : Dst) (imm : BitVec 16) (e : Bool) (s : State) : Out := .next (runMove (.imm d imm e) s)

/-- LONG_IMMEDIATE_MOVE (R152): A move writes a 32-bit literal to DST, placed as POS gives. -/
def execLongImmediateMove (d : Dst) (pos : LitPos) (lit : BitVec 32) (e : Bool) (s : State) : Out := .next (runMove (.long d pos lit e) s)

/-- IDLE (R153): An idle move ends the bundle and the core issues nothing for COUNT stitches. -/
def execIdle (count : BitVec 24) (e : Bool) (s : State) : Out := .next (runMove (.idle count e) s)

/-- NOP (R153): A move without effect that counts against R63. -/
def execNop (e : Bool) (s : State) : Out := .next (runMove (.nop e) s)

end Sys2Proof.Machine
end

