-- ==== Sys2Proof/Machine/PlanEvents.lean ====
section
/-! DEFINITION. Meanings: the op words of Puzil engines (spec/11_puzil.md R278 to R296), and the events of plans (R273 to R276, R282, R292;
spec/15_region_scheduler.md R343). An op runs on the engine in focus, at its stitch. -/
namespace Sys2Proof.Machine

/-- A loop word as the engine meets it: its body, count, strides and wrap are those that `opsAt` and `opWordAt` read from the word. -/
def pzLoopOp (step : BitVec 8) (ofs : BitVec 24) (_body : BitVec 8) (_count : BitVec 16) (_ostride : BitVec 24) (_astride _awrap : BitVec 22) : PzOp :=
  { opc := 13, step := step.toNat, ofs := ofs.toNat }

/-- PUZIL_NOP (R293): Puzil nop executes at its offset with no effect. -/
def execPuzilNop (step : BitVec 8) (ofs : BitVec 24) (s : State) : Out :=
  .next (runPz { opc := 0, step := step.toNat, ofs := ofs.toNat } s)

/-- PUZIL_SEND (R283): An engine reads a local chunk and places it on a link to a rank. -/
def execPuzilSend (step : BitVec 8) (ofs : BitVec 24) (a : BitVec 22) (len : BitVec 8) (_adv : BitVec 3) (link : BitVec 4) (s : State) : Out :=
  .next (runPz { opc := 1, step := step.toNat, ofs := ofs.toNat, a := a.toNat, len := len.toNat, x := link.toNat * 2048 } s)

/-- PUZIL_RECV (R283): An engine writes the chunk of its paired send to local D. -/
def execPuzilRecv (step : BitVec 8) (ofs : BitVec 24) (d : BitVec 22) (len : BitVec 8) (_adv : BitVec 3) (link : BitVec 4) (s : State) : Out :=
  .next (runPz { opc := 2, step := step.toNat, ofs := ofs.toNat, d := d.toNat, len := len.toNat, x := link.toNat * 2048 } s)

/-- PUZIL_COPY (R284): An engine converts and moves a chunk between local memory and a window. -/
def execPuzilCopy (step : BitVec 8) (ofs : BitVec 24) (a : BitVec 22) (d : BitVec 22) (len : BitVec 8) (_adv : BitVec 3) (sfmt : BitVec 4) (dfmt : BitVec 4) (sat : Bool) (s : State) : Out :=
  .next (runPz { opc := 3, step := step.toNat, ofs := ofs.toNat, a := a.toNat, d := d.toNat, len := len.toNat, x := sfmt.toNat * 2048 + dfmt.toNat * 128 + (if sat then 64 else 0) } s)

/-- PUZIL_REDUCE (R285): An engine combines two chunks element by element by add, max or min. -/
def execPuzilReduce (step : BitVec 8) (ofs : BitVec 24) (a : BitVec 22) (b : BitVec 22) (d : BitVec 22) (len : BitVec 8) (_adv : BitVec 3) (fmt : BitVec 4) (red : BitVec 2) (s : State) : Out :=
  .next (runPz { opc := 4, step := step.toNat, ofs := ofs.toNat, a := a.toNat, b := b.toNat, d := d.toNat, len := len.toNat, x := fmt.toNat * 2048 + red.toNat * 512 } s)

/-- PUZIL_RQADD (R286): An engine adds two narrow-format chunks and requantises the sum. -/
def execPuzilRqadd (step : BitVec 8) (ofs : BitVec 24) (a : BitVec 22) (b : BitVec 22) (d : BitVec 22) (len : BitVec 8) (_adv : BitVec 3) (qf : BitVec 2) (ty : BitVec 3) (sat : Bool) (nb : BitVec 9) (s : State) : Out :=
  .next (runPz { opc := 5, step := step.toNat, ofs := ofs.toNat, a := a.toNat, b := b.toNat, d := d.toNat, len := len.toNat, x := qf.toNat * 8192 + ty.toNat * 1024 + (if sat then 512 else 0) + nb.toNat } s)

/-- PUZIL_EXPMAX (R288): An engine folds contributions or states into XS128 state exponents and flags. -/
def execPuzilExpmax (step : BitVec 8) (ofs : BitVec 24) (a : BitVec 22) (b : BitVec 22) (d : BitVec 22) (len : BitVec 8) (_adv : BitVec 3) (bst : Bool) (s : State) : Out :=
  .next (runPz { opc := 6, step := step.toNat, ofs := ofs.toNat, a := a.toNat, b := b.toNat, d := d.toNat, len := len.toNat, x := if bst then 16384 else 0 } s)

/-- PUZIL_BINACC (R289): An engine accumulates XS128 bins and refuses mismatched exponents with SLIP. -/
def execPuzilBinacc (step : BitVec 8) (ofs : BitVec 24) (a : BitVec 22) (b : BitVec 22) (d : BitVec 22) (len : BitVec 8) (_adv : BitVec 3) (bst : Bool) (s : State) : Out :=
  .next (runPz { opc := 7, step := step.toNat, ofs := ofs.toNat, a := a.toNat, b := b.toNat, d := d.toNat, len := len.toNat, x := if bst then 16384 else 0 } s)

/-- PUZIL_BINOUT (R290): An engine rounds XS128 states to FP32 results. -/
def execPuzilBinout (step : BitVec 8) (ofs : BitVec 24) (a : BitVec 22) (d : BitVec 22) (len : BitVec 8) (_adv : BitVec 3) (s : State) : Out :=
  .next (runPz { opc := 8, step := step.toNat, ofs := ofs.toNat, a := a.toNat, d := d.toNat, len := len.toNat } s)

/-- PUZIL_DIGEST (R291): An engine computes the CRC-64 of a chunk. -/
def execPuzilDigest (step : BitVec 8) (ofs : BitVec 24) (a : BitVec 22) (d : BitVec 22) (len : BitVec 8) (_adv : BitVec 3) (s : State) : Out :=
  .next (runPz { opc := 9, step := step.toNat, ofs := ofs.toNat, a := a.toNat, d := d.toNat, len := len.toNat } s)

/-- PUZIL_DCMP (R291): An engine compares two 8-byte digests. -/
def execPuzilDcmp (step : BitVec 8) (ofs : BitVec 24) (a : BitVec 22) (b : BitVec 22) (_adv : BitVec 3) (peer : BitVec 8) (s : State) : Out :=
  .next (runPz { opc := 10, step := step.toNat, ofs := ofs.toNat, a := a.toNat, b := b.toNat, x := peer.toNat * 128 } s)

/-- PUZIL_SIGNAL (R292): An engine sets a NOTIFY token in a core and ORs its FLAGS into that core's VSTAT. -/
def execPuzilSignal (step : BitVec 8) (ofs : BitVec 24) (link : BitVec 4) (tok : BitVec 6) (s : State) : Out :=
  .next (runPz { opc := 11, step := step.toNat, ofs := ofs.toNat, x := link.toNat * 2048 + tok.toNat * 32 } s)

/-- PUZIL_WAIT (R293): An engine asserts that every earlier op of its program has completed. -/
def execPuzilWait (step : BitVec 8) (ofs : BitVec 24) (s : State) : Out :=
  .next (runPz { opc := 12, step := step.toNat, ofs := ofs.toNat } s)

/-- PUZIL_LOOP (R294): An engine repeats a body of op words with advanced offsets and addresses. It executes nothing of its own: the iterations of its body are the ops of `opsAt`. -/
def execPuzilLoop (step : BitVec 8) (ofs : BitVec 24) (body : BitVec 8) (count : BitVec 16) (ostride : BitVec 24) (astride : BitVec 22) (awrap : BitVec 22) (s : State) : Out :=
  .next (runPz (pzLoopOp step ofs body count ostride astride awrap) s)

/-- PUZIL_END (R293): An engine reaches its last offset, and the plan is complete at r + C. -/
def execPuzilEnd (step : BitVec 8) (ofs : BitVec 24) (s : State) : Out :=
  .next (runPz { opc := 14, step := step.toNat, ofs := ofs.toNat } s)

/-- HOST_TRIGGER (R313): A host writes a plan handle to a region's trigger window, and the trigger is registered at the segment root or dropped. -/
def execHostTrigger (rg : Nat) (h : Nat) (s : State) : Out := .next (runHostTrigger rg h (s.onRg rg))

/-- PLAN_RELEASE (R275): Dr stitches after a trigger, the plan is released on every engine, which clears FLAGS and starts counting offsets. -/
def execPlanRelease (rg : Nat) (h : Nat) (s : State) : Out := .next (runPlanRelease rg h (s.onRg rg))

/-- ENGINE_WRITE (R282): A delayed write, landing or token of a Puzil op takes place at its stitch. -/
def execEngineWrite (rg : Nat) (h : Nat) (n : Nat) (s : State) : Out := .next (runEngineWrite h n (s.onRg rg))

/-- PLAN_SETUP (R343): The plan_setup command checks a plan object, reserves its resources, loads its engines and returns a handle. -/
def execPlanSetup (rg : Nat) (fpa : Nat) (s : State) : Out := .next (runPlanSetup rg fpa (s.healed (s.planReads rg fpa)))

/-- PLAN_FREE (R343): The plan_free command releases a resident plan. -/
def execPlanFree (h : Nat) (s : State) : Out := .next (runPlanFree h s)

end Sys2Proof.Machine
end

