-- ==== Sys2Proof/Machine/RecoveryEvents.lean ====
section
/-! DEFINITION. Meanings: Events of diagnosis and repair (spec/16_faults_recovery.md R358, R366 to R374, R402; spec/17_program_recovery.md R378; spec/01_panel.md R18 to R20). -/
namespace Sys2Proof.Machine

/-- DIAGNOSIS (R366): Each service processor diagnoses a hard fault on its own evidence and forms a verdict. -/
def execDiagnosis (west : Option Verdict) (east : Option Verdict) (s : State) : Out := .next (runDiagnosis west east s)

/-- NEIGHBOUR_VOTE (R367): A neighbouring package's service processor returns its vote. -/
def execNeighbourVote (ballot : Ballot) (s : State) : Out := .next (runVote ballot s)

/-- NEIGHBOUR_VOTE_TIMEOUT (R367): The neighbour does not answer within 2^30 cycles and counts as voting for neither. -/
def execNeighbourVoteTimeout (s : State) : Out := .next (runVoteTimeout s)

/-- OPERATOR_VERDICT (R367): After a vote without a majority, the operator's policy chooses a verdict or an unpick. -/
def execOperatorVerdict (choice : Ballot) (s : State) : Out := .next (runOperator choice s)

/-- CORRECTABLE_ERROR (R368): The ECC corrects a value and the event is counted; 16 corrections at one location are treated as a hard fault. -/
def execCorrectableError (unit : Nat) (loc : Nat) (s : State) : Out := .next (runCorrectable unit loc s)

/-- SCRUB_POISON (R358): The background scrub finds a poisoned value, which is reported and stamped at the segment root. -/
def execScrubPoison (rg : Nat) (cls : Nat) (unit : Nat) (addr : Nat) (s : State) : Out := .next (runScrub rg cls unit addr s)

/-- CORE_RETIRE (R368): A hard-faulted core is retired by row shift and the affected regions roll back. -/
def execCoreRetire (dc : Nat) (dr : Nat) (row : Nat) (col : Nat) (s : State) : Out := .next (runRetire dc dr row col s)

/-- CHANNEL_SWAP (R368): A faulty seam channel is swapped for a repair channel, with ease once no repair channel is left. -/
def execChannelSwap (seam : Nat) (lossy : Bool) (s : State) : Out := .next (runSwap seam lossy s)

/-- BRIDGE_HALF_REMAP (R370): The banks of a lost bridge half are remapped to the surviving half. -/
def execBridgeHalfRemap (br : Nat) (half : Bool) (s : State) : Out := .next (runRemap br half s)

/-- COLUMN_DARN (R19): A column that holds a lost C-die is darned by shifting the die map. -/
def execColumnDarn (col : Nat) (s : State) : Out := .next (runColumn col s)

/-- REMOTE_DARN (R369): A logical die lost after a column is already darned is excluded, or darned to a remote spare with ease. -/
def execRemoteDarn (u : Nat) (v : Nat) (spare : Option (Nat × Nat)) (s : State) : Out := .next (runRemote u v spare s)

/-- H_DIE_LOSS (R378): An H-die is lost, and each region with an access due there gets a REBUILD cause. -/
def execHDieLoss (phys : Nat) (s : State) : Out := .next (runHLoss phys s)

/-- H_DIE_DARN (R371): A lost logical H-die is darned to a spare H-die. -/
def execHDieDarn (h : Nat) (s : State) : Out := .next (runHDarn h s)

/-- H_DIE_DARN_IN_SERVICE (R402): An H-die still in service is copied to a spare and its map entry rewritten. -/
def execHDieDarnInService (h : Nat) (s : State) : Out := .next (runHMove h s)

/-- GROUP_REBUILD (R374): The background rebuild writes a group of a lost H-die to the spare. -/
def execGroupRebuild (h : Nat) (s : State) : Out := .next (runRebuild h s)

/-- PACKAGE_LOSS (R368): A package is lost: its multi-package regions are held and unpicked. -/
def execPackageLoss (pkg : Nat) (s : State) : Out := .next (runPackage pkg s)

/-- CONTROL_DIE_LOSS (R368): A control die is lost and the standby scheduler takes over. -/
def execControlDieLoss (side : Side) (s : State) : Out := .next (runControl side s)

/-- M_DIE_HALF_LOST (R368): Half of an M-die is lost, and every region with a route, plan, grant bank or window through that bridge is held. -/
def execMDieHalfLost (br : Nat) (half : Bool) (s : State) : Out := .next (runHalfLost br half s)

/-- C_DIE_LOST (R368): A C-die is lost, and every region with a logical die in its logical column or east of it is held. -/
def execCDieLost (col : Nat) (row : Nat) (s : State) : Out := .next (runDieLost col row s)

end Sys2Proof.Machine
end

