-- ==== Sys2Proof/Machine/SchedEvents.lean ====
section
/-! DEFINITION. Meanings: Events of the region scheduler (spec/15_region_scheduler.md R327 to R353). -/
namespace Sys2Proof.Machine

/-- SCHEDULE_END (R351): Once every write of an ended region is visible, the scheduler frees the region, writes DONE and decrements the dependants. -/
def execScheduleEnd (rg : Nat) (s : State) : Out := .next (runScheduleEnd rg (s.healed (s.endReads rg)))

/-- LAUNCH_RING_PRODUCE (R332): A write of a ring's PROD adds records to the ring, or is refused when the ring would overflow. -/
def execLaunchRingProduce (ring : Nat) (prod : Nat) (s : State) : Out := .next (runProduce ring prod s)

/-- LAUNCH_RECORD_ACCEPT (R329): The scheduler reads a launch record while CONS differs from PROD, accepts or refuses it, and advances CONS. -/
def execLaunchRecordAccept (s : State) : Out := .next (runAccept (s.healed s.recordReads))

/-- PLACEMENT (R335): When resources are freed or a schedule becomes Runnable, the scheduler places Runnable and Saved schedules in effective-priority order. -/
def execPlacement (s : State) : Out := .next (runPlacement (s.healed s.placeReads))

/-- REGION_LOAD (R341): A placed schedule is loaded: the descriptor, preserve area, routes, plans and core state are written, then the region is released. -/
def execRegionLoad (rg : Nat) (s : State) : Out := .next (runLoad rg (s.healed (s.loadReads rg)))

/-- UNPICK (R349): A region is killed: the unpick flood, the purge of its routes and plans, and the discarding of its accesses. -/
def execUnpick (rg : Nat) (reason : Nat) (s : State) : Out := .next (runUnpick rg reason s)

/-- UNPICK_SWEEP_END (R349): The router sweep of an unpick ends after 4,096 stitches of the region. -/
def execUnpickSweepEnd (rg : Nat) (s : State) : Out := .next (runSweepEnd rg s)

/-- PURGE_COMPLETE (R349): The purge tree reads 0, so the region's grant and number are freed and the completion word is written with STATUS 0x20. -/
def execPurgeComplete (rg : Nat) (s : State) : Out := .next (runPurge rg s)

/-- PURGE_TIMEOUT (R349): The purge tree has not cleared 2^20 cycles after the sweep, so the units still set are reported. -/
def execPurgeTimeout (rg : Nat) (s : State) : Out := .next (runPurgeTimeout rg s)

/-- PREEMPT_COMMAND (R345): The preempt command sends a pre-emption request to a region. -/
def execPreemptCommand (rg : Nat) (s : State) : Out := .next (runPreemptCommand rg s)

/-- CANCEL (R333): The cancel command frees a Waiting or Runnable slot and clears its count. -/
def execCancel (sid : Nat) (s : State) : Out := .next (runCancel sid s)

/-- HEARTBEAT (R352): The active scheduler sends a heartbeat to the standby every 2^20 cycles. -/
def execHeartbeat (s : State) : Out := .next (runHeartbeat s)

/-- SCHEDULER_TAKEOVER (R353): After 2^24 cycles without a heartbeat, or on a vote, the standby scheduler takes over. -/
def execSchedulerTakeover (s : State) : Out := .next (runTakeover s)

end Sys2Proof.Machine
end

