-- ==== Sys2Proof/Machine/SyMoves.lean ====
section
/-! DEFINITION. Meanings: triggers of sy (spec/10_transfer_sync_ops.md R252 to R266). Each is the shared effect of its move (Moves.lean). -/
namespace Sys2Proof.Machine

/-- SY_SYNC (R38): Arrive at the drawstring and wait for the release. -/
def execSySync (src : Src) (e : Bool) (s : State) : Out := .next (runMove (.transport src (.trig (.sy .sync)) false 0 false 0 e) s)

/-- SY_ARRIVE (R38): Arrive at the drawstring and keep issuing. -/
def execSyArrive (src : Src) (e : Bool) (s : State) : Out := .next (runMove (.transport src (.trig (.sy .arrive)) false 0 false 0 e) s)

/-- SY_WAITREL (R38): Wait for the release of a pending arrival. -/
def execSyWaitrel (src : Src) (e : Bool) (s : State) : Out := .next (runMove (.transport src (.trig (.sy .waitrel)) false 0 false 0 e) s)

/-- SY_HALT (R254): Put the core in the Halted state. -/
def execSyHalt (src : Src) (e : Bool) (s : State) : Out := .next (runMove (.transport src (.trig (.sy .halt)) false 0 false 0 e) s)

/-- SY_TFENCE (R100): Raise ARITH if VSTAT AND VTRAPEN is non-zero. -/
def execSyTfence (src : Src) (e : Bool) (s : State) : Out := .next (runMove (.transport src (.trig (.sy .tfence)) false 0 false 0 e) s)

/-- SY_PHINT (R257): Mark a pre-emption point that names a liveness entry. -/
def execSyPhint (src : Src) (e : Bool) (s : State) : Out := .next (runMove (.transport src (.trig (.sy .phint)) false 0 false 0 e) s)

/-- SY_CDOPEN (R258): Open a containment domain and copy its preserved state. -/
def execSyCdopen (src : Src) (e : Bool) (s : State) : Out := .next (runMove (.transport src (.trig (.sy .cdopen)) false 0 false 0 e) s)

/-- SY_CDCLOSE (R261): Close the innermost containment domain. -/
def execSyCdclose (src : Src) (e : Bool) (s : State) : Out := .next (runMove (.transport src (.trig (.sy .cdclose)) false 0 false 0 e) s)

/-- SY_CTRIG (R263): Fire a plan by its handle. -/
def execSyCtrig (src : Src) (e : Bool) (s : State) : Out := .next (runMove (.transport src (.trig (.sy .ctrig)) false 0 false 0 e) s)

/-- SY_CHK (R256): Assert the SSC, or with .tok a NOTIFY bit. -/
def execSyChk (tok : Bool) (src : Src) (e : Bool) (s : State) : Out := .next (runMove (.transport src (.trig (.sy .chk)) false 0 false (modBits false false tok) e) s)

/-- SY_GUARD (R264): Write a guard register. -/
def execSyGuard (src : Src) (e : Bool) (s : State) : Out := .next (runMove (.transport src (.trig (.sy .guard)) false 0 false 0 e) s)

/-- SY_WATCH (R264): Write a watchpoint register. -/
def execSyWatch (src : Src) (e : Bool) (s : State) : Out := .next (runMove (.transport src (.trig (.sy .watch)) false 0 false 0 e) s)

/-- SY_BRK (R265): Raise BREAK. -/
def execSyBrk (src : Src) (e : Bool) (s : State) : Out := .next (runMove (.transport src (.trig (.sy .brk)) false 0 false 0 e) s)

/-- SY_SYSREQ (R266): Raise SYSREQ, a request to the region manager. -/
def execSySysreq (src : Src) (e : Bool) (s : State) : Out := .next (runMove (.transport src (.trig (.sy .sysreq)) false 0 false 0 e) s)

/-- SY_SYNC_SHORT (R38): Short form of sy.sync. -/
def execSySyncShort (src : ShortSrc) (e : Bool) (s : State) : Out := .next (runMove (.short src (.trig (.sy .sync)) e) s)

/-- SY_ARRIVE_SHORT (R38): Short form of sy.arrive. -/
def execSyArriveShort (src : ShortSrc) (e : Bool) (s : State) : Out := .next (runMove (.short src (.trig (.sy .arrive)) e) s)

/-- SY_WAITREL_SHORT (R38): Short form of sy.waitrel. -/
def execSyWaitrelShort (src : ShortSrc) (e : Bool) (s : State) : Out := .next (runMove (.short src (.trig (.sy .waitrel)) e) s)

/-- SY_HALT_SHORT (R254): Short form of sy.halt. -/
def execSyHaltShort (src : ShortSrc) (e : Bool) (s : State) : Out := .next (runMove (.short src (.trig (.sy .halt)) e) s)

/-- SY_TFENCE_SHORT (R100): Short form of sy.tfence. -/
def execSyTfenceShort (src : ShortSrc) (e : Bool) (s : State) : Out := .next (runMove (.short src (.trig (.sy .tfence)) e) s)

/-- SY_PHINT_SHORT (R257): Short form of sy.phint. -/
def execSyPhintShort (src : ShortSrc) (e : Bool) (s : State) : Out := .next (runMove (.short src (.trig (.sy .phint)) e) s)

/-- SY_CDOPEN_SHORT (R258): Short form of sy.cdopen. -/
def execSyCdopenShort (src : ShortSrc) (e : Bool) (s : State) : Out := .next (runMove (.short src (.trig (.sy .cdopen)) e) s)

/-- SY_CDCLOSE_SHORT (R261): Short form of sy.cdclose. -/
def execSyCdcloseShort (src : ShortSrc) (e : Bool) (s : State) : Out := .next (runMove (.short src (.trig (.sy .cdclose)) e) s)

/-- SY_CTRIG_SHORT (R263): Short form of sy.ctrig. -/
def execSyCtrigShort (src : ShortSrc) (e : Bool) (s : State) : Out := .next (runMove (.short src (.trig (.sy .ctrig)) e) s)

/-- SY_CHK_SHORT (R256): Short form of sy.chk, the span-stitch assertion. -/
def execSyChkShort (src : ShortSrc) (e : Bool) (s : State) : Out := .next (runMove (.short src (.trig (.sy .chk)) e) s)

/-- SY_GUARD_SHORT (R264): Short form of sy.guard. -/
def execSyGuardShort (src : ShortSrc) (e : Bool) (s : State) : Out := .next (runMove (.short src (.trig (.sy .guard)) e) s)

/-- SY_WATCH_SHORT (R264): Short form of sy.watch. -/
def execSyWatchShort (src : ShortSrc) (e : Bool) (s : State) : Out := .next (runMove (.short src (.trig (.sy .watch)) e) s)

/-- SY_BRK_SHORT (R265): Short form of sy.brk. -/
def execSyBrkShort (src : ShortSrc) (e : Bool) (s : State) : Out := .next (runMove (.short src (.trig (.sy .brk)) e) s)

/-- SY_SYSREQ_SHORT (R266): Short form of sy.sysreq. -/
def execSySysreqShort (src : ShortSrc) (e : Bool) (s : State) : Out := .next (runMove (.short src (.trig (.sy .sysreq)) e) s)

end Sys2Proof.Machine
end

