-- ==== Sys2Proof/Machine/SystemEvents.lean ====
section
/-! DEFINITION. Meanings: Events of the tack plane, the system window, host harts and devices (spec/14_system_state.md R306 to R311; spec/18_links_host_boot.md R391, R393). -/
namespace Sys2Proof.Machine

/-- TACK_PACKET (R310): A tack router forwards a packet, takes a detour, or drops it with an undeliverable reply. -/
def execTackPacket (rt : Nat) (vn : Bool) (s : State) : Out := .next (runTack rt vn s)

/-- REGISTER_WRITE (R307): A window write to a register that has no row of its own writes it, or is refused. -/
def execRegisterWrite (swa : Nat) (data : List (BitVec 64)) (s : State) : Out := .next (runRegisterWrite swa data s)

/-- HOST_ACCESS (R391): A host hart accesses far memory, near memory, the system window or its own devices. -/
def execHostAccess (hart : Nat) (write : Bool) (addr : Nat) (size : Nat) (data : List (BitVec 8)) (s : State) : Out := .next (runHostAccess hart write addr size data s)

/-- DMA_WRITE (R393): A PCIe device writes through the IOMMU to far or near memory. -/
def execDmaWrite (die : Side) (addr : Nat) (data : List (BitVec 8)) (s : State) : Out := .next (runDma die addr data s)

end Sys2Proof.Machine
end

