-- ==== Sys2Proof/Machine/TgMoves.lean ====
section
/-! DEFINITION. Meanings: triggers of tg (spec/07_scalar_ops.md R192). Each is the shared effect of its move (Moves.lean). -/
namespace Sys2Proof.Machine

/-- TG_LOOK (R192): Look up a key in the tag table. -/
def execTgLook (src : Src) (e : Bool) (s : State) : Out := .next (runMove (.transport src (.trig (.tg .look)) false 0 false 0 e) s)

/-- TG_SET (R192): Set a tag table entry. -/
def execTgSet (src : Src) (e : Bool) (s : State) : Out := .next (runMove (.transport src (.trig (.tg .set)) false 0 false 0 e) s)

/-- TG_INV (R192): Invalidate a tag table entry. -/
def execTgInv (src : Src) (e : Bool) (s : State) : Out := .next (runMove (.transport src (.trig (.tg .inv)) false 0 false 0 e) s)

/-- TG_READ (R192): Read an entry's DATA. -/
def execTgRead (src : Src) (e : Bool) (s : State) : Out := .next (runMove (.transport src (.trig (.tg .read)) false 0 false 0 e) s)

/-- TG_LOOK_SHORT (R192): Short form of tg.look. -/
def execTgLookShort (src : ShortSrc) (e : Bool) (s : State) : Out := .next (runMove (.short src (.trig (.tg .look)) e) s)

/-- TG_SET_SHORT (R192): Short form of tg.set. -/
def execTgSetShort (src : ShortSrc) (e : Bool) (s : State) : Out := .next (runMove (.short src (.trig (.tg .set)) e) s)

/-- TG_INV_SHORT (R192): Short form of tg.inv. -/
def execTgInvShort (src : ShortSrc) (e : Bool) (s : State) : Out := .next (runMove (.short src (.trig (.tg .inv)) e) s)

/-- TG_READ_SHORT (R192): Short form of tg.read. -/
def execTgReadShort (src : ShortSrc) (e : Bool) (s : State) : Out := .next (runMove (.short src (.trig (.tg .read)) e) s)

end Sys2Proof.Machine
end

