-- ==== Sys2Proof/Machine/TranslateEvents.lean ====
section
/-! DEFINITION. Meanings: Events of far address translation and of the per-core system registers (spec/14_system_state.md R314, R323, R324; spec/10_transfer_sync_ops.md R266). -/
namespace Sys2Proof.Machine

/-- TRANSLATION_WALK (R323): The partition's HOME translation unit receives an XLATE request, walks the table, and fills the core's cache or reports the page. -/
def execTranslationWalk (rg : Nat) (c : Nat) (va : Nat) (s : State) : Out := .next (runWalk rg c va (s.healed (s.walkReads rg c va)))

/-- XLATE_RETRY (R323): A write of RETRY to an XLATE record makes the unit walk the table again. -/
def execXlateRetry (rg : Nat) (c : Nat) (n : Nat) (s : State) : Out := .next (runRetry rg c n s)

/-- XLATE_DECLINE (R323): A write of DECLINE to an XLATE record adds TRANSLATION to the hold record. -/
def execXlateDecline (rg : Nat) (c : Nat) (n : Nat) (s : State) : Out := .next (runDecline rg c n s)

/-- TCINV_ALL (R324): A TCINV write with ALL set invalidates every translation-cache entry of the core. -/
def execTcinvAll (pk : Nat) (s : State) : Out := .next (runTcAll pk s)

/-- TCINV_VPN (R324): A TCINV write invalidates the entries whose page holds VPN. -/
def execTcinvVpn (pk : Nat) (vpn : Nat) (s : State) : Out := .next (runTcVpn pk vpn s)

/-- SYSREPLY_WRITE (R266): A write of SYSREPLY resolves the core's SYSREQ cause, and the reply lands in sy.r at h. -/
def execSysreplyWrite (pk : Nat) (val : BitVec 64) (s : State) : Out := .next (runSysreply pk val s)

end Sys2Proof.Machine
end

