-- ==== Sys2Proof/Machine/VpMoves.lean ====
section
/-! DEFINITION. Meanings: triggers of vp (R203 to R211). Each is the shared effect of its move (Moves.lean). -/
namespace Sys2Proof.Machine

/-- VP_PERM (R203): Permute lanes of a by the indices in b. -/
def execVpPerm (m : BitVec 3) (z : Bool) (k : BitVec 3) (q : Bool) (src : Src) (e : Bool) (s : State) : Out := .next (runMove (.transport src (.trig (.vp .perm)) q k z m e) s)

/-- VP_BCAST (R203): Broadcast lane 0 of b. -/
def execVpBcast (m : BitVec 3) (z : Bool) (k : BitVec 3) (q : Bool) (src : Src) (e : Bool) (s : State) : Out := .next (runMove (.transport src (.trig (.vp .bcast)) q k z m e) s)

/-- VP_SLIDEUP (R203): Slide lanes up, filling from c. -/
def execVpSlideup (m : BitVec 3) (z : Bool) (k : BitVec 3) (q : Bool) (src : Src) (e : Bool) (s : State) : Out := .next (runMove (.transport src (.trig (.vp .slideup)) q k z m e) s)

/-- VP_SLIDEDN (R203): Slide lanes down, filling from c. -/
def execVpSlidedn (m : BitVec 3) (z : Bool) (k : BitVec 3) (q : Bool) (src : Src) (e : Bool) (s : State) : Out := .next (runMove (.transport src (.trig (.vp .slidedn)) q k z m e) s)

/-- VP_CVT (R205): Convert lanes between formats. -/
def execVpCvt (rne : Bool) (nosat : Bool) (z : Bool) (k : BitVec 3) (q : Bool) (src : Src) (e : Bool) (s : State) : Out := .next (runMove (.transport src (.trig (.vp .cvt)) q k z (modBits rne nosat false) e) s)

/-- VP_RSUM (R209): Tree sum of lanes. -/
def execVpRsum (m : BitVec 3) (z : Bool) (k : BitVec 3) (q : Bool) (src : Src) (e : Bool) (s : State) : Out := .next (runMove (.transport src (.trig (.vp .rsum)) q k z m e) s)

/-- VP_RMAX (R209): Maximum of lanes. -/
def execVpRmax (m : BitVec 3) (z : Bool) (k : BitVec 3) (q : Bool) (src : Src) (e : Bool) (s : State) : Out := .next (runMove (.transport src (.trig (.vp .rmax)) q k z m e) s)

/-- VP_RMIN (R209): Minimum of lanes. -/
def execVpRmin (m : BitVec 3) (z : Bool) (k : BitVec 3) (q : Bool) (src : Src) (e : Bool) (s : State) : Out := .next (runMove (.transport src (.trig (.vp .rmin)) q k z m e) s)

/-- VP_MAND (R211): Mask AND. -/
def execVpMand (src : Src) (e : Bool) (s : State) : Out := .next (runMove (.transport src (.trig (.vp .mand)) false 0 false 0 e) s)

/-- VP_MOR (R211): Mask OR. -/
def execVpMor (src : Src) (e : Bool) (s : State) : Out := .next (runMove (.transport src (.trig (.vp .mor)) false 0 false 0 e) s)

/-- VP_MXOR (R211): Mask XOR. -/
def execVpMxor (src : Src) (e : Bool) (s : State) : Out := .next (runMove (.transport src (.trig (.vp .mxor)) false 0 false 0 e) s)

/-- VP_MNOT (R211): Mask NOT. -/
def execVpMnot (src : Src) (e : Bool) (s : State) : Out := .next (runMove (.transport src (.trig (.vp .mnot)) false 0 false 0 e) s)

/-- VP_MPOP (R211): Mask population count. -/
def execVpMpop (src : Src) (e : Bool) (s : State) : Out := .next (runMove (.transport src (.trig (.vp .mpop)) false 0 false 0 e) s)

/-- VP_IOTA (R203): Lane i := base + i. -/
def execVpIota (m : BitVec 3) (z : Bool) (k : BitVec 3) (q : Bool) (src : Src) (e : Bool) (s : State) : Out := .next (runMove (.transport src (.trig (.vp .iota)) q k z m e) s)

/-- VP_ROT (R203): Rotate lanes. -/
def execVpRot (m : BitVec 3) (z : Bool) (k : BitVec 3) (q : Bool) (src : Src) (e : Bool) (s : State) : Out := .next (runMove (.transport src (.trig (.vp .rot)) q k z m e) s)

/-- VP_ILV (R203): Interleave the lanes of a and b. -/
def execVpIlv (m : BitVec 3) (z : Bool) (k : BitVec 3) (q : Bool) (src : Src) (e : Bool) (s : State) : Out := .next (runMove (.transport src (.trig (.vp .ilv)) q k z m e) s)

/-- VP_DILV (R203): De-interleave the lanes of a and b. -/
def execVpDilv (m : BitVec 3) (z : Bool) (k : BitVec 3) (q : Bool) (src : Src) (e : Bool) (s : State) : Out := .next (runMove (.transport src (.trig (.vp .dilv)) q k z m e) s)

/-- VP_COMPRESS (R204): Pack the kept lanes. -/
def execVpCompress (m : BitVec 3) (z : Bool) (k : BitVec 3) (q : Bool) (src : Src) (e : Bool) (s : State) : Out := .next (runMove (.transport src (.trig (.vp .compress)) q k z m e) s)

/-- VP_EXPAND (R204): Spread lanes to the kept positions. -/
def execVpExpand (m : BitVec 3) (z : Bool) (k : BitVec 3) (q : Bool) (src : Src) (e : Bool) (s : State) : Out := .next (runMove (.transport src (.trig (.vp .expand)) q k z m e) s)

/-- VP_CVT_EF (R206): Error-feedback conversion from FP32 with a residue. -/
def execVpCvtEf (nosat : Bool) (z : Bool) (k : BitVec 3) (q : Bool) (src : Src) (e : Bool) (s : State) : Out := .next (runMove (.transport src (.trig (.vp .cvtEf)) q k z (modBits false nosat false) e) s)

/-- VP_QBLK (R207): Quantise 64 FP32 lanes to two B4 blocks. -/
def execVpQblk (m : BitVec 3) (src : Src) (e : Bool) (s : State) : Out := .next (runMove (.transport src (.trig (.vp .qblk)) false 0 false m e) s)

/-- VP_DQBLK (R208): Decode two B4 blocks to FP32. -/
def execVpDqblk (src : Src) (e : Bool) (s : State) : Out := .next (runMove (.transport src (.trig (.vp .dqblk)) false 0 false 0 e) s)

/-- VP_RBSUM (R210): XS128 exact sum of lanes, with its state. -/
def execVpRbsum (src : Src) (e : Bool) (s : State) : Out := .next (runMove (.transport src (.trig (.vp .rbsum)) false 0 false 0 e) s)

/-- VP_MFIRST (R211): Index of the lowest mask bit. -/
def execVpMfirst (src : Src) (e : Bool) (s : State) : Out := .next (runMove (.transport src (.trig (.vp .mfirst)) false 0 false 0 e) s)

/-- VP_PERM_SHORT (R203): Short form of vp.perm. -/
def execVpPermShort (src : ShortSrc) (e : Bool) (s : State) : Out := .next (runMove (.short src (.trig (.vp .perm)) e) s)

/-- VP_BCAST_SHORT (R203): Short form of vp.bcast. -/
def execVpBcastShort (src : ShortSrc) (e : Bool) (s : State) : Out := .next (runMove (.short src (.trig (.vp .bcast)) e) s)

/-- VP_SLIDEUP_SHORT (R203): Short form of vp.slideup. -/
def execVpSlideupShort (src : ShortSrc) (e : Bool) (s : State) : Out := .next (runMove (.short src (.trig (.vp .slideup)) e) s)

/-- VP_SLIDEDN_SHORT (R203): Short form of vp.slidedn. -/
def execVpSlidednShort (src : ShortSrc) (e : Bool) (s : State) : Out := .next (runMove (.short src (.trig (.vp .slidedn)) e) s)

/-- VP_CVT_SHORT (R205): Short form of vp.cvt. -/
def execVpCvtShort (src : ShortSrc) (e : Bool) (s : State) : Out := .next (runMove (.short src (.trig (.vp .cvt)) e) s)

/-- VP_RSUM_SHORT (R209): Short form of vp.rsum. -/
def execVpRsumShort (src : ShortSrc) (e : Bool) (s : State) : Out := .next (runMove (.short src (.trig (.vp .rsum)) e) s)

/-- VP_RMAX_SHORT (R209): Short form of vp.rmax. -/
def execVpRmaxShort (src : ShortSrc) (e : Bool) (s : State) : Out := .next (runMove (.short src (.trig (.vp .rmax)) e) s)

/-- VP_RMIN_SHORT (R209): Short form of vp.rmin. -/
def execVpRminShort (src : ShortSrc) (e : Bool) (s : State) : Out := .next (runMove (.short src (.trig (.vp .rmin)) e) s)

/-- VP_MAND_SHORT (R211): Short form of vp.mand. -/
def execVpMandShort (src : ShortSrc) (e : Bool) (s : State) : Out := .next (runMove (.short src (.trig (.vp .mand)) e) s)

/-- VP_MOR_SHORT (R211): Short form of vp.mor. -/
def execVpMorShort (src : ShortSrc) (e : Bool) (s : State) : Out := .next (runMove (.short src (.trig (.vp .mor)) e) s)

/-- VP_MXOR_SHORT (R211): Short form of vp.mxor. -/
def execVpMxorShort (src : ShortSrc) (e : Bool) (s : State) : Out := .next (runMove (.short src (.trig (.vp .mxor)) e) s)

/-- VP_MNOT_SHORT (R211): Short form of vp.mnot. -/
def execVpMnotShort (src : ShortSrc) (e : Bool) (s : State) : Out := .next (runMove (.short src (.trig (.vp .mnot)) e) s)

/-- VP_MPOP_SHORT (R211): Short form of vp.mpop. -/
def execVpMpopShort (src : ShortSrc) (e : Bool) (s : State) : Out := .next (runMove (.short src (.trig (.vp .mpop)) e) s)

/-- VP_IOTA_SHORT (R203): Short form of vp.iota. -/
def execVpIotaShort (src : ShortSrc) (e : Bool) (s : State) : Out := .next (runMove (.short src (.trig (.vp .iota)) e) s)

end Sys2Proof.Machine
end

