-- ==== Sys2Proof/Machine/VxMoves.lean ====
section
/-! DEFINITION. Meanings: triggers of vx (spec/08_vector_ops.md R197 to R202). Each is the shared effect of its move (Moves.lean). -/
namespace Sys2Proof.Machine

/-- VX_FADD (R199): Lane-wise FP add. -/
def execVxFadd (m : BitVec 3) (z : Bool) (k : BitVec 3) (q : Bool) (src : Src) (e : Bool) (s : State) : Out := .next (runMove (.transport src (.trig (.vx .fadd)) q k z m e) s)

/-- VX_FSUB (R199): Lane-wise FP subtract. -/
def execVxFsub (m : BitVec 3) (z : Bool) (k : BitVec 3) (q : Bool) (src : Src) (e : Bool) (s : State) : Out := .next (runMove (.transport src (.trig (.vx .fsub)) q k z m e) s)

/-- VX_FMUL (R199): Lane-wise FP multiply. -/
def execVxFmul (m : BitVec 3) (z : Bool) (k : BitVec 3) (q : Bool) (src : Src) (e : Bool) (s : State) : Out := .next (runMove (.transport src (.trig (.vx .fmul)) q k z m e) s)

/-- VX_FMA (R199): Lane-wise fused multiply-add. -/
def execVxFma (m : BitVec 3) (z : Bool) (k : BitVec 3) (q : Bool) (src : Src) (e : Bool) (s : State) : Out := .next (runMove (.transport src (.trig (.vx .fma)) q k z m e) s)

/-- VX_FMS (R199): Lane-wise fused multiply-subtract. -/
def execVxFms (m : BitVec 3) (z : Bool) (k : BitVec 3) (q : Bool) (src : Src) (e : Bool) (s : State) : Out := .next (runMove (.transport src (.trig (.vx .fms)) q k z m e) s)

/-- VX_FNMA (R199): Lane-wise negated fused multiply-add. -/
def execVxFnma (m : BitVec 3) (z : Bool) (k : BitVec 3) (q : Bool) (src : Src) (e : Bool) (s : State) : Out := .next (runMove (.transport src (.trig (.vx .fnma)) q k z m e) s)

/-- VX_FMIN (R199): Lane-wise FP minimum. -/
def execVxFmin (m : BitVec 3) (z : Bool) (k : BitVec 3) (q : Bool) (src : Src) (e : Bool) (s : State) : Out := .next (runMove (.transport src (.trig (.vx .fmin)) q k z m e) s)

/-- VX_FMAX (R199): Lane-wise FP maximum. -/
def execVxFmax (m : BitVec 3) (z : Bool) (k : BitVec 3) (q : Bool) (src : Src) (e : Bool) (s : State) : Out := .next (runMove (.transport src (.trig (.vx .fmax)) q k z m e) s)

/-- VX_ADD (R197): Lane-wise integer add. -/
def execVxAdd (m : BitVec 2) (z : Bool) (k : BitVec 3) (q : Bool) (src : Src) (e : Bool) (s : State) : Out := .next (runMove (.transport src (.trig (.vx .add)) q k z (m.setWidth 3) e) s)

/-- VX_SUB (R197): Lane-wise integer subtract. -/
def execVxSub (m : BitVec 2) (z : Bool) (k : BitVec 3) (q : Bool) (src : Src) (e : Bool) (s : State) : Out := .next (runMove (.transport src (.trig (.vx .sub)) q k z (m.setWidth 3) e) s)

/-- VX_AND (R198): 2,048-bit AND. -/
def execVxAnd (z : Bool) (k : BitVec 3) (q : Bool) (src : Src) (e : Bool) (s : State) : Out := .next (runMove (.transport src (.trig (.vx .and)) q k z 0 e) s)

/-- VX_OR (R198): 2,048-bit OR. -/
def execVxOr (z : Bool) (k : BitVec 3) (q : Bool) (src : Src) (e : Bool) (s : State) : Out := .next (runMove (.transport src (.trig (.vx .or)) q k z 0 e) s)

/-- VX_XOR (R198): 2,048-bit XOR. -/
def execVxXor (z : Bool) (k : BitVec 3) (q : Bool) (src : Src) (e : Bool) (s : State) : Out := .next (runMove (.transport src (.trig (.vx .xor)) q k z 0 e) s)

/-- VX_MAX (R197): Lane-wise signed maximum. -/
def execVxMax (m : BitVec 2) (z : Bool) (k : BitVec 3) (q : Bool) (src : Src) (e : Bool) (s : State) : Out := .next (runMove (.transport src (.trig (.vx .max)) q k z (m.setWidth 3) e) s)

/-- VX_FABS (R199): Lane-wise FP absolute value. -/
def execVxFabs (m : BitVec 3) (z : Bool) (k : BitVec 3) (q : Bool) (src : Src) (e : Bool) (s : State) : Out := .next (runMove (.transport src (.trig (.vx .fabs)) q k z m e) s)

/-- VX_FNEG (R199): Lane-wise FP negate. -/
def execVxFneg (m : BitVec 3) (z : Bool) (k : BitVec 3) (q : Bool) (src : Src) (e : Bool) (s : State) : Out := .next (runMove (.transport src (.trig (.vx .fneg)) q k z m e) s)

/-- VX_FDIV (R199): Lane-wise FP divide, latency 12, occupancy 4. -/
def execVxFdiv (m : BitVec 3) (z : Bool) (k : BitVec 3) (q : Bool) (src : Src) (e : Bool) (s : State) : Out := .next (runMove (.transport src (.trig (.vx .fdiv)) q k z m e) s)

/-- VX_FSQRT (R199): Lane-wise FP square root. -/
def execVxFsqrt (m : BitVec 3) (z : Bool) (k : BitVec 3) (q : Bool) (src : Src) (e : Bool) (s : State) : Out := .next (runMove (.transport src (.trig (.vx .fsqrt)) q k z m e) s)

/-- VX_FCEQ (R202): FP compare equal to a mask. -/
def execVxFceq (m : BitVec 3) (z : Bool) (k : BitVec 3) (q : Bool) (src : Src) (e : Bool) (s : State) : Out := .next (runMove (.transport src (.trig (.vx .fceq)) q k z m e) s)

/-- VX_FCLT (R202): FP compare less than to a mask. -/
def execVxFclt (m : BitVec 3) (z : Bool) (k : BitVec 3) (q : Bool) (src : Src) (e : Bool) (s : State) : Out := .next (runMove (.transport src (.trig (.vx .fclt)) q k z m e) s)

/-- VX_FCLE (R202): FP compare less or equal to a mask. -/
def execVxFcle (m : BitVec 3) (z : Bool) (k : BitVec 3) (q : Bool) (src : Src) (e : Bool) (s : State) : Out := .next (runMove (.transport src (.trig (.vx .fcle)) q k z m e) s)

/-- VX_MUL (R197): Lane-wise integer multiply, low half. -/
def execVxMul (m : BitVec 2) (z : Bool) (k : BitVec 3) (q : Bool) (src : Src) (e : Bool) (s : State) : Out := .next (runMove (.transport src (.trig (.vx .mul)) q k z (m.setWidth 3) e) s)

/-- VX_MULH (R197): Lane-wise signed multiply, high half. -/
def execVxMulh (m : BitVec 2) (z : Bool) (k : BitVec 3) (q : Bool) (src : Src) (e : Bool) (s : State) : Out := .next (runMove (.transport src (.trig (.vx .mulh)) q k z (m.setWidth 3) e) s)

/-- VX_ANDN (R198): 2,048-bit AND NOT. -/
def execVxAndn (z : Bool) (k : BitVec 3) (q : Bool) (src : Src) (e : Bool) (s : State) : Out := .next (runMove (.transport src (.trig (.vx .andn)) q k z 0 e) s)

/-- VX_SHL (R197): Lane-wise shift left. -/
def execVxShl (m : BitVec 2) (z : Bool) (k : BitVec 3) (q : Bool) (src : Src) (e : Bool) (s : State) : Out := .next (runMove (.transport src (.trig (.vx .shl)) q k z (m.setWidth 3) e) s)

/-- VX_SHR (R197): Lane-wise logical shift right. -/
def execVxShr (m : BitVec 2) (z : Bool) (k : BitVec 3) (q : Bool) (src : Src) (e : Bool) (s : State) : Out := .next (runMove (.transport src (.trig (.vx .shr)) q k z (m.setWidth 3) e) s)

/-- VX_SRA (R197): Lane-wise arithmetic shift right. -/
def execVxSra (m : BitVec 2) (z : Bool) (k : BitVec 3) (q : Bool) (src : Src) (e : Bool) (s : State) : Out := .next (runMove (.transport src (.trig (.vx .sra)) q k z (m.setWidth 3) e) s)

/-- VX_MIN (R197): Lane-wise signed minimum. -/
def execVxMin (m : BitVec 2) (z : Bool) (k : BitVec 3) (q : Bool) (src : Src) (e : Bool) (s : State) : Out := .next (runMove (.transport src (.trig (.vx .min)) q k z (m.setWidth 3) e) s)

/-- VX_MINU (R197): Lane-wise unsigned minimum. -/
def execVxMinu (m : BitVec 2) (z : Bool) (k : BitVec 3) (q : Bool) (src : Src) (e : Bool) (s : State) : Out := .next (runMove (.transport src (.trig (.vx .minu)) q k z (m.setWidth 3) e) s)

/-- VX_MAXU (R197): Lane-wise unsigned maximum. -/
def execVxMaxu (m : BitVec 2) (z : Bool) (k : BitVec 3) (q : Bool) (src : Src) (e : Bool) (s : State) : Out := .next (runMove (.transport src (.trig (.vx .maxu)) q k z (m.setWidth 3) e) s)

/-- VX_ADDS (R197): Lane-wise signed saturating add. -/
def execVxAdds (m : BitVec 2) (z : Bool) (k : BitVec 3) (q : Bool) (src : Src) (e : Bool) (s : State) : Out := .next (runMove (.transport src (.trig (.vx .adds)) q k z (m.setWidth 3) e) s)

/-- VX_SUBS (R197): Lane-wise signed saturating subtract. -/
def execVxSubs (m : BitVec 2) (z : Bool) (k : BitVec 3) (q : Bool) (src : Src) (e : Bool) (s : State) : Out := .next (runMove (.transport src (.trig (.vx .subs)) q k z (m.setWidth 3) e) s)

/-- VX_ADDSU (R197): Lane-wise unsigned saturating add. -/
def execVxAddsu (m : BitVec 2) (z : Bool) (k : BitVec 3) (q : Bool) (src : Src) (e : Bool) (s : State) : Out := .next (runMove (.transport src (.trig (.vx .addsu)) q k z (m.setWidth 3) e) s)

/-- VX_SUBSU (R197): Lane-wise unsigned saturating subtract. -/
def execVxSubsu (m : BitVec 2) (z : Bool) (k : BitVec 3) (q : Bool) (src : Src) (e : Bool) (s : State) : Out := .next (runMove (.transport src (.trig (.vx .subsu)) q k z (m.setWidth 3) e) s)

/-- VX_CEQ (R202): Integer compare equal to a mask. -/
def execVxCeq (m : BitVec 2) (z : Bool) (k : BitVec 3) (q : Bool) (src : Src) (e : Bool) (s : State) : Out := .next (runMove (.transport src (.trig (.vx .ceq)) q k z (m.setWidth 3) e) s)

/-- VX_CLT (R202): Signed integer compare less than to a mask. -/
def execVxClt (m : BitVec 2) (z : Bool) (k : BitVec 3) (q : Bool) (src : Src) (e : Bool) (s : State) : Out := .next (runMove (.transport src (.trig (.vx .clt)) q k z (m.setWidth 3) e) s)

/-- VX_CLTU (R202): Unsigned integer compare less than to a mask. -/
def execVxCltu (m : BitVec 2) (z : Bool) (k : BitVec 3) (q : Bool) (src : Src) (e : Bool) (s : State) : Out := .next (runMove (.transport src (.trig (.vx .cltu)) q k z (m.setWidth 3) e) s)

/-- VX_FADD_SHORT (R199): Short form of vx.fadd. -/
def execVxFaddShort (src : ShortSrc) (e : Bool) (s : State) : Out := .next (runMove (.short src (.trig (.vx .fadd)) e) s)

/-- VX_FSUB_SHORT (R199): Short form of vx.fsub. -/
def execVxFsubShort (src : ShortSrc) (e : Bool) (s : State) : Out := .next (runMove (.short src (.trig (.vx .fsub)) e) s)

/-- VX_FMUL_SHORT (R199): Short form of vx.fmul. -/
def execVxFmulShort (src : ShortSrc) (e : Bool) (s : State) : Out := .next (runMove (.short src (.trig (.vx .fmul)) e) s)

/-- VX_FMA_SHORT (R199): Short form of vx.fma. -/
def execVxFmaShort (src : ShortSrc) (e : Bool) (s : State) : Out := .next (runMove (.short src (.trig (.vx .fma)) e) s)

/-- VX_FMS_SHORT (R199): Short form of vx.fms. -/
def execVxFmsShort (src : ShortSrc) (e : Bool) (s : State) : Out := .next (runMove (.short src (.trig (.vx .fms)) e) s)

/-- VX_FNMA_SHORT (R199): Short form of vx.fnma. -/
def execVxFnmaShort (src : ShortSrc) (e : Bool) (s : State) : Out := .next (runMove (.short src (.trig (.vx .fnma)) e) s)

/-- VX_FMIN_SHORT (R199): Short form of vx.fmin. -/
def execVxFminShort (src : ShortSrc) (e : Bool) (s : State) : Out := .next (runMove (.short src (.trig (.vx .fmin)) e) s)

/-- VX_FMAX_SHORT (R199): Short form of vx.fmax. -/
def execVxFmaxShort (src : ShortSrc) (e : Bool) (s : State) : Out := .next (runMove (.short src (.trig (.vx .fmax)) e) s)

/-- VX_ADD_SHORT (R197): Short form of vx.add. -/
def execVxAddShort (src : ShortSrc) (e : Bool) (s : State) : Out := .next (runMove (.short src (.trig (.vx .add)) e) s)

/-- VX_SUB_SHORT (R197): Short form of vx.sub. -/
def execVxSubShort (src : ShortSrc) (e : Bool) (s : State) : Out := .next (runMove (.short src (.trig (.vx .sub)) e) s)

/-- VX_AND_SHORT (R198): Short form of vx.and. -/
def execVxAndShort (src : ShortSrc) (e : Bool) (s : State) : Out := .next (runMove (.short src (.trig (.vx .and)) e) s)

/-- VX_OR_SHORT (R198): Short form of vx.or. -/
def execVxOrShort (src : ShortSrc) (e : Bool) (s : State) : Out := .next (runMove (.short src (.trig (.vx .or)) e) s)

/-- VX_XOR_SHORT (R198): Short form of vx.xor. -/
def execVxXorShort (src : ShortSrc) (e : Bool) (s : State) : Out := .next (runMove (.short src (.trig (.vx .xor)) e) s)

/-- VX_MAX_SHORT (R197): Short form of vx.max. -/
def execVxMaxShort (src : ShortSrc) (e : Bool) (s : State) : Out := .next (runMove (.short src (.trig (.vx .max)) e) s)

end Sys2Proof.Machine
end

