-- ==== Sys2Proof/Machine/XfMoves.lean ====
section
/-! DEFINITION. Meanings: triggers of xf (spec/10_transfer_sync_ops.md R239 to R249). Each is the shared effect of its move (Moves.lean). -/
namespace Sys2Proof.Machine

/-- XF_SEND (R242): Send beats on a route to another core. -/
def execXfSend (src : Src) (e : Bool) (s : State) : Out := .next (runMove (.transport src (.trig (.xf .send)) false 0 false 0 e) s)

/-- XF_RECV (R242): Receive a route's beats into the scratchpad. -/
def execXfRecv (src : Src) (e : Bool) (s : State) : Out := .next (runMove (.transport src (.trig (.xf .recv)) false 0 false 0 e) s)

/-- XF_GETN (R241): Get bytes from near memory. -/
def execXfGetn (acq : Bool) (src : Src) (e : Bool) (s : State) : Out := .next (runMove (.transport src (.trig (.xf .getn)) false 0 false (modBits false false acq) e) s)

/-- XF_PUTN (R241): Put bytes to near memory. -/
def execXfPutn (rel : Bool) (src : Src) (e : Bool) (s : State) : Out := .next (runMove (.transport src (.trig (.xf .putn)) false 0 false (modBits false rel false) e) s)

/-- XF_GETF (R241): Get bytes from far memory. -/
def execXfGetf (acq : Bool) (src : Src) (e : Bool) (s : State) : Out := .next (runMove (.transport src (.trig (.xf .getf)) false 0 false (modBits false false acq) e) s)

/-- XF_PUTF (R241): Put bytes to far memory, journalled while a domain is open. -/
def execXfPutf (rel : Bool) (src : Src) (e : Bool) (s : State) : Out := .next (runMove (.transport src (.trig (.xf .putf)) false 0 false (modBits false rel false) e) s)

/-- XF_GATHF (R246): Gather far rows by an index list. -/
def execXfGathf (acq : Bool) (src : Src) (e : Bool) (s : State) : Out := .next (runMove (.transport src (.trig (.xf .gathf)) false 0 false (modBits false false acq) e) s)

/-- XF_SCATF (R246): Scatter rows to far memory by an index list. -/
def execXfScatf (rel : Bool) (src : Src) (e : Bool) (s : State) : Out := .next (runMove (.transport src (.trig (.xf .scatf)) false 0 false (modBits false rel false) e) s)

/-- XF_AMON (R247): Atomic at a near bank ALU. -/
def execXfAmon (rel : Bool) (acq : Bool) (src : Src) (e : Bool) (s : State) : Out := .next (runMove (.transport src (.trig (.xf .amon)) false 0 false (modBits false rel acq) e) s)

/-- XF_FLUSH (R248): Fence the named domains, landing a token at t+640. -/
def execXfFlush (src : Src) (e : Bool) (s : State) : Out := .next (runMove (.transport src (.trig (.xf .flush)) false 0 false 0 e) s)

/-- XF_COMMIT (R249): Close the uncommitted xf operations into group g. -/
def execXfCommit (src : Src) (e : Bool) (s : State) : Out := .next (runMove (.transport src (.trig (.xf .commit)) false 0 false 0 e) s)

/-- XF_WAIT (R249): Assert that xf group g is complete. -/
def execXfWait (src : Src) (e : Bool) (s : State) : Out := .next (runMove (.transport src (.trig (.xf .wait)) false 0 false 0 e) s)

/-- XF_SEND_SHORT (R242): Short form of xf.send. -/
def execXfSendShort (src : ShortSrc) (e : Bool) (s : State) : Out := .next (runMove (.short src (.trig (.xf .send)) e) s)

/-- XF_RECV_SHORT (R242): Short form of xf.recv. -/
def execXfRecvShort (src : ShortSrc) (e : Bool) (s : State) : Out := .next (runMove (.short src (.trig (.xf .recv)) e) s)

/-- XF_GETN_SHORT (R241): Short form of xf.getn. -/
def execXfGetnShort (src : ShortSrc) (e : Bool) (s : State) : Out := .next (runMove (.short src (.trig (.xf .getn)) e) s)

/-- XF_PUTN_SHORT (R241): Short form of xf.putn. -/
def execXfPutnShort (src : ShortSrc) (e : Bool) (s : State) : Out := .next (runMove (.short src (.trig (.xf .putn)) e) s)

/-- XF_GETF_SHORT (R241): Short form of xf.getf. -/
def execXfGetfShort (src : ShortSrc) (e : Bool) (s : State) : Out := .next (runMove (.short src (.trig (.xf .getf)) e) s)

/-- XF_PUTF_SHORT (R241): Short form of xf.putf. -/
def execXfPutfShort (src : ShortSrc) (e : Bool) (s : State) : Out := .next (runMove (.short src (.trig (.xf .putf)) e) s)

/-- XF_GATHF_SHORT (R246): Short form of xf.gathf. -/
def execXfGathfShort (src : ShortSrc) (e : Bool) (s : State) : Out := .next (runMove (.short src (.trig (.xf .gathf)) e) s)

/-- XF_SCATF_SHORT (R246): Short form of xf.scatf. -/
def execXfScatfShort (src : ShortSrc) (e : Bool) (s : State) : Out := .next (runMove (.short src (.trig (.xf .scatf)) e) s)

/-- XF_AMON_SHORT (R247): Short form of xf.amon. -/
def execXfAmonShort (src : ShortSrc) (e : Bool) (s : State) : Out := .next (runMove (.short src (.trig (.xf .amon)) e) s)

/-- XF_FLUSH_SHORT (R248): Short form of xf.flush. -/
def execXfFlushShort (src : ShortSrc) (e : Bool) (s : State) : Out := .next (runMove (.short src (.trig (.xf .flush)) e) s)

/-- XF_COMMIT_SHORT (R249): Short form of xf.commit. -/
def execXfCommitShort (src : ShortSrc) (e : Bool) (s : State) : Out := .next (runMove (.short src (.trig (.xf .commit)) e) s)

/-- XF_WAIT_SHORT (R249): Short form of xf.wait. -/
def execXfWaitShort (src : ShortSrc) (e : Bool) (s : State) : Out := .next (runMove (.short src (.trig (.xf .wait)) e) s)

end Sys2Proof.Machine
end

