-- ==== Sys2Proof/Machine/Dispatch.lean ====
section
/-! DEFINITION. Every instruction with its meaning: one arm per constructor. -/
namespace Sys2Proof.Machine

def exec (i : Instr) (s : State) : Host.Outcome State Fault Refusal :=
  match i with
  | .bundleIssue rg c => Sys2Proof.Machine.execBundleIssue rg c s
  | .idleEnd rg c => Sys2Proof.Machine.execIdleEnd rg c s
  | .landing rg c => Sys2Proof.Machine.execLanding rg c s
  | .bankSlot rg c b => Sys2Proof.Machine.execBankSlot rg c b s
  | .branchRedirect rg c => Sys2Proof.Machine.execBranchRedirect rg c s
  | .drawstringRelease rg => Sys2Proof.Machine.execDrawstringRelease rg s
  | .hold rg => Sys2Proof.Machine.execHold rg s
  | .thaw rg => Sys2Proof.Machine.execThaw rg s
  | .debugRequest rg => Sys2Proof.Machine.execDebugRequest rg s
  | .acknowledge rg => Sys2Proof.Machine.execAcknowledge rg s
  | .preemptArm rg => Sys2Proof.Machine.execPreemptArm rg s
  | .preemptForce rg => Sys2Proof.Machine.execPreemptForce rg s
  | .phintMismatch rg t => Sys2Proof.Machine.execPhintMismatch rg t s
  | .cdStitchMismatch rg t => Sys2Proof.Machine.execCdStitchMismatch rg t s
  | .hang rg => Sys2Proof.Machine.execHang rg s
  | .regionRelease rg => Sys2Proof.Machine.execRegionRelease rg s
  | .regionEnd rg => Sys2Proof.Machine.execRegionEnd rg s
  | .scheduleEnd rg => Sys2Proof.Machine.execScheduleEnd rg s
  | .routerFlit rg c x j => Sys2Proof.Machine.execRouterFlit rg c x j s
  | .beatLanding rg c b => Sys2Proof.Machine.execBeatLanding rg c b s
  | .nearBankAccess rg nb => Sys2Proof.Machine.execNearBankAccess rg nb s
  | .farProbe rg c x j => Sys2Proof.Machine.execFarProbe rg c x j s
  | .rebuildDecision rg c x j => Sys2Proof.Machine.execRebuildDecision rg c x j s
  | .farRead rg c x j => Sys2Proof.Machine.execFarRead rg c x j s
  | .farWriteEffect rg c x j => Sys2Proof.Machine.execFarWriteEffect rg c x j s
  | .translationWalk rg c va => Sys2Proof.Machine.execTranslationWalk rg c va s
  | .xlateRetry rg c n => Sys2Proof.Machine.execXlateRetry rg c n s
  | .xlateDecline rg c n => Sys2Proof.Machine.execXlateDecline rg c n s
  | .tcinvAll pk => Sys2Proof.Machine.execTcinvAll pk s
  | .tcinvVpn pk vpn => Sys2Proof.Machine.execTcinvVpn pk vpn s
  | .sysreplyWrite pk val => Sys2Proof.Machine.execSysreplyWrite pk val s
  | .hostTrigger rg h => Sys2Proof.Machine.execHostTrigger rg h s
  | .planRelease rg h => Sys2Proof.Machine.execPlanRelease rg h s
  | .engineWrite rg h n => Sys2Proof.Machine.execEngineWrite rg h n s
  | .puzilNop step ofs => Sys2Proof.Machine.execPuzilNop step ofs s
  | .puzilSend step ofs a len adv link => Sys2Proof.Machine.execPuzilSend step ofs a len adv link s
  | .puzilRecv step ofs d len adv link => Sys2Proof.Machine.execPuzilRecv step ofs d len adv link s
  | .puzilCopy step ofs a d len adv sfmt dfmt sat => Sys2Proof.Machine.execPuzilCopy step ofs a d len adv sfmt dfmt sat s
  | .puzilReduce step ofs a b d len adv fmt red => Sys2Proof.Machine.execPuzilReduce step ofs a b d len adv fmt red s
  | .puzilRqadd step ofs a b d len adv qf ty sat nb => Sys2Proof.Machine.execPuzilRqadd step ofs a b d len adv qf ty sat nb s
  | .puzilExpmax step ofs a b d len adv bst => Sys2Proof.Machine.execPuzilExpmax step ofs a b d len adv bst s
  | .puzilBinacc step ofs a b d len adv bst => Sys2Proof.Machine.execPuzilBinacc step ofs a b d len adv bst s
  | .puzilBinout step ofs a d len adv => Sys2Proof.Machine.execPuzilBinout step ofs a d len adv s
  | .puzilDigest step ofs a d len adv => Sys2Proof.Machine.execPuzilDigest step ofs a d len adv s
  | .puzilDcmp step ofs a b adv peer => Sys2Proof.Machine.execPuzilDcmp step ofs a b adv peer s
  | .puzilSignal step ofs link tok => Sys2Proof.Machine.execPuzilSignal step ofs link tok s
  | .puzilWait step ofs => Sys2Proof.Machine.execPuzilWait step ofs s
  | .puzilLoop step ofs body count ostride astride awrap => Sys2Proof.Machine.execPuzilLoop step ofs body count ostride astride awrap s
  | .puzilEnd step ofs => Sys2Proof.Machine.execPuzilEnd step ofs s
  | .preemptSave rg => Sys2Proof.Machine.execPreemptSave rg s
  | .restore rg => Sys2Proof.Machine.execRestore rg s
  | .rollback rg => Sys2Proof.Machine.execRollback rg s
  | .journalApply rg => Sys2Proof.Machine.execJournalApply rg s
  | .launchRingProduce ring prod => Sys2Proof.Machine.execLaunchRingProduce ring prod s
  | .launchRecordAccept => Sys2Proof.Machine.execLaunchRecordAccept s
  | .placement => Sys2Proof.Machine.execPlacement s
  | .regionLoad rg => Sys2Proof.Machine.execRegionLoad rg s
  | .planSetup rg fpa => Sys2Proof.Machine.execPlanSetup rg fpa s
  | .planFree h => Sys2Proof.Machine.execPlanFree h s
  | .unpick rg reason => Sys2Proof.Machine.execUnpick rg reason s
  | .unpickSweepEnd rg => Sys2Proof.Machine.execUnpickSweepEnd rg s
  | .purgeComplete rg => Sys2Proof.Machine.execPurgeComplete rg s
  | .purgeTimeout rg => Sys2Proof.Machine.execPurgeTimeout rg s
  | .preemptCommand rg => Sys2Proof.Machine.execPreemptCommand rg s
  | .cancel sid => Sys2Proof.Machine.execCancel sid s
  | .heartbeat => Sys2Proof.Machine.execHeartbeat s
  | .schedulerTakeover => Sys2Proof.Machine.execSchedulerTakeover s
  | .tackPacket rt vn => Sys2Proof.Machine.execTackPacket rt vn s
  | .registerWrite swa data => Sys2Proof.Machine.execRegisterWrite swa data s
  | .diagnosis west east => Sys2Proof.Machine.execDiagnosis west east s
  | .neighbourVote ballot => Sys2Proof.Machine.execNeighbourVote ballot s
  | .neighbourVoteTimeout => Sys2Proof.Machine.execNeighbourVoteTimeout s
  | .operatorVerdict choice => Sys2Proof.Machine.execOperatorVerdict choice s
  | .correctableError unit loc => Sys2Proof.Machine.execCorrectableError unit loc s
  | .scrubPoison rg cls unit addr => Sys2Proof.Machine.execScrubPoison rg cls unit addr s
  | .coreRetire dc dr row col => Sys2Proof.Machine.execCoreRetire dc dr row col s
  | .channelSwap seam lossy => Sys2Proof.Machine.execChannelSwap seam lossy s
  | .bridgeHalfRemap br half => Sys2Proof.Machine.execBridgeHalfRemap br half s
  | .columnDarn col => Sys2Proof.Machine.execColumnDarn col s
  | .remoteDarn u v spare => Sys2Proof.Machine.execRemoteDarn u v spare s
  | .hDieLoss phys => Sys2Proof.Machine.execHDieLoss phys s
  | .hDieDarn h => Sys2Proof.Machine.execHDieDarn h s
  | .hDieDarnInService h => Sys2Proof.Machine.execHDieDarnInService h s
  | .groupRebuild h => Sys2Proof.Machine.execGroupRebuild h s
  | .packageLoss pkg => Sys2Proof.Machine.execPackageLoss pkg s
  | .controlDieLoss side => Sys2Proof.Machine.execControlDieLoss side s
  | .linkDown port => Sys2Proof.Machine.execLinkDown port s
  | .linkTraining port lat skid prot => Sys2Proof.Machine.execLinkTraining port lat skid prot s
  | .syncPulse aligned => Sys2Proof.Machine.execSyncPulse aligned s
  | .fabricGroupReceive port data tag => Sys2Proof.Machine.execFabricGroupReceive port data tag s
  | .keyInstall port inward key => Sys2Proof.Machine.execKeyInstall port inward key s
  | .keySwitch port inward => Sys2Proof.Machine.execKeySwitch port inward s
  | .counterExhausted port inward => Sys2Proof.Machine.execCounterExhausted port inward s
  | .serviceRailOn => Sys2Proof.Machine.execServiceRailOn s
  | .recoveryProvision side => Sys2Proof.Machine.execRecoveryProvision side s
  | .serviceRailOff => Sys2Proof.Machine.execServiceRailOff s
  | .svnRaise svn => Sys2Proof.Machine.execSvnRaise svn s
  | .attestationRequest side req => Sys2Proof.Machine.execAttestationRequest side req s
  | .hostAccess hart write addr size data => Sys2Proof.Machine.execHostAccess hart write addr size data s
  | .dmaWrite die addr data => Sys2Proof.Machine.execDmaWrite die addr data s
  | .easeUp hot => Sys2Proof.Machine.execEaseUp hot s
  | .easeDown cool => Sys2Proof.Machine.execEaseDown cool s
  | .thermalPreempt unit => Sys2Proof.Machine.execThermalPreempt unit s
  | .coolantFault => Sys2Proof.Machine.execCoolantFault s
  | .transportMove d src e => Sys2Proof.Machine.execTransportMove d src e s
  | .shortTransportMove d src e => Sys2Proof.Machine.execShortTransportMove d src e s
  | .immediateMove d imm e => Sys2Proof.Machine.execImmediateMove d imm e s
  | .longImmediateMove d pos lit e => Sys2Proof.Machine.execLongImmediateMove d pos lit e s
  | .idle count e => Sys2Proof.Machine.execIdle count e s
  | .nop e => Sys2Proof.Machine.execNop e s
  | .faddCompact vd vs e => Sys2Proof.Machine.execFaddCompact vd vs e s
  | .fsubCompact vd vs e => Sys2Proof.Machine.execFsubCompact vd vs e s
  | .fmulCompact vd vs e => Sys2Proof.Machine.execFmulCompact vd vs e s
  | .fminCompact vd vs e => Sys2Proof.Machine.execFminCompact vd vs e s
  | .fmaxCompact vd vs e => Sys2Proof.Machine.execFmaxCompact vd vs e s
  | .baddCompact vd vs e => Sys2Proof.Machine.execBaddCompact vd vs e s
  | .bmulCompact vd vs e => Sys2Proof.Machine.execBmulCompact vd vs e s
  | .addCompact vd vs e => Sys2Proof.Machine.execAddCompact vd vs e s
  | .subCompact vd vs e => Sys2Proof.Machine.execSubCompact vd vs e s
  | .maxCompact vd vs e => Sys2Proof.Machine.execMaxCompact vd vs e s
  | .minCompact vd vs e => Sys2Proof.Machine.execMinCompact vd vs e s
  | .andCompact vd vs e => Sys2Proof.Machine.execAndCompact vd vs e s
  | .orCompact vd vs e => Sys2Proof.Machine.execOrCompact vd vs e s
  | .xorCompact vd vs e => Sys2Proof.Machine.execXorCompact vd vs e s
  | .andnCompact vd vs e => Sys2Proof.Machine.execAndnCompact vd vs e s
  | .permCompact vd vs e => Sys2Proof.Machine.execPermCompact vd vs e s
  | .iaAdd u src e => Sys2Proof.Machine.execIaAdd u src e s
  | .iaSub u src e => Sys2Proof.Machine.execIaSub u src e s
  | .iaAnd u src e => Sys2Proof.Machine.execIaAnd u src e s
  | .iaOr u src e => Sys2Proof.Machine.execIaOr u src e s
  | .iaXor u src e => Sys2Proof.Machine.execIaXor u src e s
  | .iaShl u src e => Sys2Proof.Machine.execIaShl u src e s
  | .iaShr u src e => Sys2Proof.Machine.execIaShr u src e s
  | .iaSra u src e => Sys2Proof.Machine.execIaSra u src e s
  | .iaSel u src e => Sys2Proof.Machine.execIaSel u src e s
  | .iaCmpeq u src e => Sys2Proof.Machine.execIaCmpeq u src e s
  | .iaCmplt u src e => Sys2Proof.Machine.execIaCmplt u src e s
  | .iaCmpltu u src e => Sys2Proof.Machine.execIaCmpltu u src e s
  | .iaMin u src e => Sys2Proof.Machine.execIaMin u src e s
  | .iaMax u src e => Sys2Proof.Machine.execIaMax u src e s
  | .iaAndn u src e => Sys2Proof.Machine.execIaAndn u src e s
  | .iaRotl u src e => Sys2Proof.Machine.execIaRotl u src e s
  | .iaMinu u src e => Sys2Proof.Machine.execIaMinu u src e s
  | .iaMaxu u src e => Sys2Proof.Machine.execIaMaxu u src e s
  | .iaCmpne u src e => Sys2Proof.Machine.execIaCmpne u src e s
  | .iaCmpge u src e => Sys2Proof.Machine.execIaCmpge u src e s
  | .iaCmpgeu u src e => Sys2Proof.Machine.execIaCmpgeu u src e s
  | .iaBfx u src e => Sys2Proof.Machine.execIaBfx u src e s
  | .iaBfi u src e => Sys2Proof.Machine.execIaBfi u src e s
  | .iaClz u src e => Sys2Proof.Machine.execIaClz u src e s
  | .iaCtz u src e => Sys2Proof.Machine.execIaCtz u src e s
  | .iaPopc u src e => Sys2Proof.Machine.execIaPopc u src e s
  | .iaPset u src e => Sys2Proof.Machine.execIaPset u src e s
  | .ia0AddShort src e => Sys2Proof.Machine.execIa0AddShort src e s
  | .ia0SubShort src e => Sys2Proof.Machine.execIa0SubShort src e s
  | .ia0AndShort src e => Sys2Proof.Machine.execIa0AndShort src e s
  | .ia0OrShort src e => Sys2Proof.Machine.execIa0OrShort src e s
  | .ia0XorShort src e => Sys2Proof.Machine.execIa0XorShort src e s
  | .ia0ShlShort src e => Sys2Proof.Machine.execIa0ShlShort src e s
  | .ia0ShrShort src e => Sys2Proof.Machine.execIa0ShrShort src e s
  | .ia0SraShort src e => Sys2Proof.Machine.execIa0SraShort src e s
  | .ia0SelShort src e => Sys2Proof.Machine.execIa0SelShort src e s
  | .ia0CmpeqShort src e => Sys2Proof.Machine.execIa0CmpeqShort src e s
  | .ia0CmpltShort src e => Sys2Proof.Machine.execIa0CmpltShort src e s
  | .ia0CmpltuShort src e => Sys2Proof.Machine.execIa0CmpltuShort src e s
  | .ia0MinShort src e => Sys2Proof.Machine.execIa0MinShort src e s
  | .ia0MaxShort src e => Sys2Proof.Machine.execIa0MaxShort src e s
  | .ia1AddShort src e => Sys2Proof.Machine.execIa1AddShort src e s
  | .ia1SubShort src e => Sys2Proof.Machine.execIa1SubShort src e s
  | .ia1AndShort src e => Sys2Proof.Machine.execIa1AndShort src e s
  | .ia1OrShort src e => Sys2Proof.Machine.execIa1OrShort src e s
  | .ia1XorShort src e => Sys2Proof.Machine.execIa1XorShort src e s
  | .ia1ShlShort src e => Sys2Proof.Machine.execIa1ShlShort src e s
  | .ia1ShrShort src e => Sys2Proof.Machine.execIa1ShrShort src e s
  | .ia1SraShort src e => Sys2Proof.Machine.execIa1SraShort src e s
  | .ia1SelShort src e => Sys2Proof.Machine.execIa1SelShort src e s
  | .ia1CmpeqShort src e => Sys2Proof.Machine.execIa1CmpeqShort src e s
  | .ia1CmpltShort src e => Sys2Proof.Machine.execIa1CmpltShort src e s
  | .ia1CmpltuShort src e => Sys2Proof.Machine.execIa1CmpltuShort src e s
  | .ia1MinShort src e => Sys2Proof.Machine.execIa1MinShort src e s
  | .ia1MaxShort src e => Sys2Proof.Machine.execIa1MaxShort src e s
  | .imMul src e => Sys2Proof.Machine.execImMul src e s
  | .imMulh src e => Sys2Proof.Machine.execImMulh src e s
  | .imMulhu src e => Sys2Proof.Machine.execImMulhu src e s
  | .imDiv src e => Sys2Proof.Machine.execImDiv src e s
  | .imDivu src e => Sys2Proof.Machine.execImDivu src e s
  | .imRem src e => Sys2Proof.Machine.execImRem src e s
  | .imRemu src e => Sys2Proof.Machine.execImRemu src e s
  | .imMulShort src e => Sys2Proof.Machine.execImMulShort src e s
  | .imMulhShort src e => Sys2Proof.Machine.execImMulhShort src e s
  | .imMulhuShort src e => Sys2Proof.Machine.execImMulhuShort src e s
  | .imDivShort src e => Sys2Proof.Machine.execImDivShort src e s
  | .imDivuShort src e => Sys2Proof.Machine.execImDivuShort src e s
  | .imRemShort src e => Sys2Proof.Machine.execImRemShort src e s
  | .imRemuShort src e => Sys2Proof.Machine.execImRemuShort src e s
  | .lsLd8 p src e => Sys2Proof.Machine.execLsLd8 p src e s
  | .lsLd8u p src e => Sys2Proof.Machine.execLsLd8u p src e s
  | .lsLd16 p src e => Sys2Proof.Machine.execLsLd16 p src e s
  | .lsLd16u p src e => Sys2Proof.Machine.execLsLd16u p src e s
  | .lsLd32 p src e => Sys2Proof.Machine.execLsLd32 p src e s
  | .lsLd32u p src e => Sys2Proof.Machine.execLsLd32u p src e s
  | .lsLd64 p src e => Sys2Proof.Machine.execLsLd64 p src e s
  | .lsLd256 p src e => Sys2Proof.Machine.execLsLd256 p src e s
  | .lsSt8 p src e => Sys2Proof.Machine.execLsSt8 p src e s
  | .lsSt16 p src e => Sys2Proof.Machine.execLsSt16 p src e s
  | .lsSt32 p src e => Sys2Proof.Machine.execLsSt32 p src e s
  | .lsSt64 p src e => Sys2Proof.Machine.execLsSt64 p src e s
  | .lsSt256 p z k q src e => Sys2Proof.Machine.execLsSt256 p z k q src e s
  | .lsAadd w p src e => Sys2Proof.Machine.execLsAadd w p src e s
  | .lsAand w p src e => Sys2Proof.Machine.execLsAand w p src e s
  | .lsAor w p src e => Sys2Proof.Machine.execLsAor w p src e s
  | .lsAxor w p src e => Sys2Proof.Machine.execLsAxor w p src e s
  | .lsAmin w p src e => Sys2Proof.Machine.execLsAmin w p src e s
  | .lsAmax w p src e => Sys2Proof.Machine.execLsAmax w p src e s
  | .lsAminu w p src e => Sys2Proof.Machine.execLsAminu w p src e s
  | .lsAmaxu w p src e => Sys2Proof.Machine.execLsAmaxu w p src e s
  | .lsAxchg w p src e => Sys2Proof.Machine.execLsAxchg w p src e s
  | .lsAcas w p src e => Sys2Proof.Machine.execLsAcas w p src e s
  | .lsAfadd p src e => Sys2Proof.Machine.execLsAfadd p src e s
  | .lsAfmin p src e => Sys2Proof.Machine.execLsAfmin p src e s
  | .lsAfmax p src e => Sys2Proof.Machine.execLsAfmax p src e s
  | .lsLd8Short src e => Sys2Proof.Machine.execLsLd8Short src e s
  | .lsLd8uShort src e => Sys2Proof.Machine.execLsLd8uShort src e s
  | .lsLd16Short src e => Sys2Proof.Machine.execLsLd16Short src e s
  | .lsLd16uShort src e => Sys2Proof.Machine.execLsLd16uShort src e s
  | .lsLd32Short src e => Sys2Proof.Machine.execLsLd32Short src e s
  | .lsLd32uShort src e => Sys2Proof.Machine.execLsLd32uShort src e s
  | .lsLd64Short src e => Sys2Proof.Machine.execLsLd64Short src e s
  | .lsLd256Short src e => Sys2Proof.Machine.execLsLd256Short src e s
  | .lsSt8Short src e => Sys2Proof.Machine.execLsSt8Short src e s
  | .lsSt16Short src e => Sys2Proof.Machine.execLsSt16Short src e s
  | .lsSt32Short src e => Sys2Proof.Machine.execLsSt32Short src e s
  | .lsSt64Short src e => Sys2Proof.Machine.execLsSt64Short src e s
  | .lsSt256Short src e => Sys2Proof.Machine.execLsSt256Short src e s
  | .lsAaddShort src e => Sys2Proof.Machine.execLsAaddShort src e s
  | .vxFadd m z k q src e => Sys2Proof.Machine.execVxFadd m z k q src e s
  | .vxFsub m z k q src e => Sys2Proof.Machine.execVxFsub m z k q src e s
  | .vxFmul m z k q src e => Sys2Proof.Machine.execVxFmul m z k q src e s
  | .vxFma m z k q src e => Sys2Proof.Machine.execVxFma m z k q src e s
  | .vxFms m z k q src e => Sys2Proof.Machine.execVxFms m z k q src e s
  | .vxFnma m z k q src e => Sys2Proof.Machine.execVxFnma m z k q src e s
  | .vxFmin m z k q src e => Sys2Proof.Machine.execVxFmin m z k q src e s
  | .vxFmax m z k q src e => Sys2Proof.Machine.execVxFmax m z k q src e s
  | .vxAdd m z k q src e => Sys2Proof.Machine.execVxAdd m z k q src e s
  | .vxSub m z k q src e => Sys2Proof.Machine.execVxSub m z k q src e s
  | .vxAnd z k q src e => Sys2Proof.Machine.execVxAnd z k q src e s
  | .vxOr z k q src e => Sys2Proof.Machine.execVxOr z k q src e s
  | .vxXor z k q src e => Sys2Proof.Machine.execVxXor z k q src e s
  | .vxMax m z k q src e => Sys2Proof.Machine.execVxMax m z k q src e s
  | .vxFabs m z k q src e => Sys2Proof.Machine.execVxFabs m z k q src e s
  | .vxFneg m z k q src e => Sys2Proof.Machine.execVxFneg m z k q src e s
  | .vxFdiv m z k q src e => Sys2Proof.Machine.execVxFdiv m z k q src e s
  | .vxFsqrt m z k q src e => Sys2Proof.Machine.execVxFsqrt m z k q src e s
  | .vxFceq m z k q src e => Sys2Proof.Machine.execVxFceq m z k q src e s
  | .vxFclt m z k q src e => Sys2Proof.Machine.execVxFclt m z k q src e s
  | .vxFcle m z k q src e => Sys2Proof.Machine.execVxFcle m z k q src e s
  | .vxMul m z k q src e => Sys2Proof.Machine.execVxMul m z k q src e s
  | .vxMulh m z k q src e => Sys2Proof.Machine.execVxMulh m z k q src e s
  | .vxAndn z k q src e => Sys2Proof.Machine.execVxAndn z k q src e s
  | .vxShl m z k q src e => Sys2Proof.Machine.execVxShl m z k q src e s
  | .vxShr m z k q src e => Sys2Proof.Machine.execVxShr m z k q src e s
  | .vxSra m z k q src e => Sys2Proof.Machine.execVxSra m z k q src e s
  | .vxMin m z k q src e => Sys2Proof.Machine.execVxMin m z k q src e s
  | .vxMinu m z k q src e => Sys2Proof.Machine.execVxMinu m z k q src e s
  | .vxMaxu m z k q src e => Sys2Proof.Machine.execVxMaxu m z k q src e s
  | .vxAdds m z k q src e => Sys2Proof.Machine.execVxAdds m z k q src e s
  | .vxSubs m z k q src e => Sys2Proof.Machine.execVxSubs m z k q src e s
  | .vxAddsu m z k q src e => Sys2Proof.Machine.execVxAddsu m z k q src e s
  | .vxSubsu m z k q src e => Sys2Proof.Machine.execVxSubsu m z k q src e s
  | .vxCeq m z k q src e => Sys2Proof.Machine.execVxCeq m z k q src e s
  | .vxClt m z k q src e => Sys2Proof.Machine.execVxClt m z k q src e s
  | .vxCltu m z k q src e => Sys2Proof.Machine.execVxCltu m z k q src e s
  | .vxFaddShort src e => Sys2Proof.Machine.execVxFaddShort src e s
  | .vxFsubShort src e => Sys2Proof.Machine.execVxFsubShort src e s
  | .vxFmulShort src e => Sys2Proof.Machine.execVxFmulShort src e s
  | .vxFmaShort src e => Sys2Proof.Machine.execVxFmaShort src e s
  | .vxFmsShort src e => Sys2Proof.Machine.execVxFmsShort src e s
  | .vxFnmaShort src e => Sys2Proof.Machine.execVxFnmaShort src e s
  | .vxFminShort src e => Sys2Proof.Machine.execVxFminShort src e s
  | .vxFmaxShort src e => Sys2Proof.Machine.execVxFmaxShort src e s
  | .vxAddShort src e => Sys2Proof.Machine.execVxAddShort src e s
  | .vxSubShort src e => Sys2Proof.Machine.execVxSubShort src e s
  | .vxAndShort src e => Sys2Proof.Machine.execVxAndShort src e s
  | .vxOrShort src e => Sys2Proof.Machine.execVxOrShort src e s
  | .vxXorShort src e => Sys2Proof.Machine.execVxXorShort src e s
  | .vxMaxShort src e => Sys2Proof.Machine.execVxMaxShort src e s
  | .vpPerm m z k q src e => Sys2Proof.Machine.execVpPerm m z k q src e s
  | .vpBcast m z k q src e => Sys2Proof.Machine.execVpBcast m z k q src e s
  | .vpSlideup m z k q src e => Sys2Proof.Machine.execVpSlideup m z k q src e s
  | .vpSlidedn m z k q src e => Sys2Proof.Machine.execVpSlidedn m z k q src e s
  | .vpCvt rne nosat z k q src e => Sys2Proof.Machine.execVpCvt rne nosat z k q src e s
  | .vpRsum m z k q src e => Sys2Proof.Machine.execVpRsum m z k q src e s
  | .vpRmax m z k q src e => Sys2Proof.Machine.execVpRmax m z k q src e s
  | .vpRmin m z k q src e => Sys2Proof.Machine.execVpRmin m z k q src e s
  | .vpMand src e => Sys2Proof.Machine.execVpMand src e s
  | .vpMor src e => Sys2Proof.Machine.execVpMor src e s
  | .vpMxor src e => Sys2Proof.Machine.execVpMxor src e s
  | .vpMnot src e => Sys2Proof.Machine.execVpMnot src e s
  | .vpMpop src e => Sys2Proof.Machine.execVpMpop src e s
  | .vpIota m z k q src e => Sys2Proof.Machine.execVpIota m z k q src e s
  | .vpRot m z k q src e => Sys2Proof.Machine.execVpRot m z k q src e s
  | .vpIlv m z k q src e => Sys2Proof.Machine.execVpIlv m z k q src e s
  | .vpDilv m z k q src e => Sys2Proof.Machine.execVpDilv m z k q src e s
  | .vpCompress m z k q src e => Sys2Proof.Machine.execVpCompress m z k q src e s
  | .vpExpand m z k q src e => Sys2Proof.Machine.execVpExpand m z k q src e s
  | .vpCvtEf nosat z k q src e => Sys2Proof.Machine.execVpCvtEf nosat z k q src e s
  | .vpQblk m src e => Sys2Proof.Machine.execVpQblk m src e s
  | .vpDqblk src e => Sys2Proof.Machine.execVpDqblk src e s
  | .vpRbsum src e => Sys2Proof.Machine.execVpRbsum src e s
  | .vpMfirst src e => Sys2Proof.Machine.execVpMfirst src e s
  | .vpPermShort src e => Sys2Proof.Machine.execVpPermShort src e s
  | .vpBcastShort src e => Sys2Proof.Machine.execVpBcastShort src e s
  | .vpSlideupShort src e => Sys2Proof.Machine.execVpSlideupShort src e s
  | .vpSlidednShort src e => Sys2Proof.Machine.execVpSlidednShort src e s
  | .vpCvtShort src e => Sys2Proof.Machine.execVpCvtShort src e s
  | .vpRsumShort src e => Sys2Proof.Machine.execVpRsumShort src e s
  | .vpRmaxShort src e => Sys2Proof.Machine.execVpRmaxShort src e s
  | .vpRminShort src e => Sys2Proof.Machine.execVpRminShort src e s
  | .vpMandShort src e => Sys2Proof.Machine.execVpMandShort src e s
  | .vpMorShort src e => Sys2Proof.Machine.execVpMorShort src e s
  | .vpMxorShort src e => Sys2Proof.Machine.execVpMxorShort src e s
  | .vpMnotShort src e => Sys2Proof.Machine.execVpMnotShort src e s
  | .vpMpopShort src e => Sys2Proof.Machine.execVpMpopShort src e s
  | .vpIotaShort src e => Sys2Proof.Machine.execVpIotaShort src e s
  | .mxMma src e => Sys2Proof.Machine.execMxMma src e s
  | .mxMmas src e => Sys2Proof.Machine.execMxMmas src e s
  | .mxZero src e => Sys2Proof.Machine.execMxZero src e s
  | .mxRrow src e => Sys2Proof.Machine.execMxRrow src e s
  | .mxRcol src e => Sys2Proof.Machine.execMxRcol src e s
  | .mxWrow src e => Sys2Proof.Machine.execMxWrow src e s
  | .mxWcol src e => Sys2Proof.Machine.execMxWcol src e s
  | .mxLoad src e => Sys2Proof.Machine.execMxLoad src e s
  | .mxStore src e => Sys2Proof.Machine.execMxStore src e s
  | .mxCommit src e => Sys2Proof.Machine.execMxCommit src e s
  | .mxWait src e => Sys2Proof.Machine.execMxWait src e s
  | .mxStatus src e => Sys2Proof.Machine.execMxStatus src e s
  | .mxMmaShort src e => Sys2Proof.Machine.execMxMmaShort src e s
  | .mxMmasShort src e => Sys2Proof.Machine.execMxMmasShort src e s
  | .mxZeroShort src e => Sys2Proof.Machine.execMxZeroShort src e s
  | .mxRrowShort src e => Sys2Proof.Machine.execMxRrowShort src e s
  | .mxRcolShort src e => Sys2Proof.Machine.execMxRcolShort src e s
  | .mxWrowShort src e => Sys2Proof.Machine.execMxWrowShort src e s
  | .mxWcolShort src e => Sys2Proof.Machine.execMxWcolShort src e s
  | .mxLoadShort src e => Sys2Proof.Machine.execMxLoadShort src e s
  | .mxStoreShort src e => Sys2Proof.Machine.execMxStoreShort src e s
  | .mxCommitShort src e => Sys2Proof.Machine.execMxCommitShort src e s
  | .mxWaitShort src e => Sys2Proof.Machine.execMxWaitShort src e s
  | .mxStatusShort src e => Sys2Proof.Machine.execMxStatusShort src e s
  | .xfSend src e => Sys2Proof.Machine.execXfSend src e s
  | .xfRecv src e => Sys2Proof.Machine.execXfRecv src e s
  | .xfGetn acq src e => Sys2Proof.Machine.execXfGetn acq src e s
  | .xfPutn rel src e => Sys2Proof.Machine.execXfPutn rel src e s
  | .xfGetf acq src e => Sys2Proof.Machine.execXfGetf acq src e s
  | .xfPutf rel src e => Sys2Proof.Machine.execXfPutf rel src e s
  | .xfGathf acq src e => Sys2Proof.Machine.execXfGathf acq src e s
  | .xfScatf rel src e => Sys2Proof.Machine.execXfScatf rel src e s
  | .xfAmon rel acq src e => Sys2Proof.Machine.execXfAmon rel acq src e s
  | .xfFlush src e => Sys2Proof.Machine.execXfFlush src e s
  | .xfCommit src e => Sys2Proof.Machine.execXfCommit src e s
  | .xfWait src e => Sys2Proof.Machine.execXfWait src e s
  | .xfSendShort src e => Sys2Proof.Machine.execXfSendShort src e s
  | .xfRecvShort src e => Sys2Proof.Machine.execXfRecvShort src e s
  | .xfGetnShort src e => Sys2Proof.Machine.execXfGetnShort src e s
  | .xfPutnShort src e => Sys2Proof.Machine.execXfPutnShort src e s
  | .xfGetfShort src e => Sys2Proof.Machine.execXfGetfShort src e s
  | .xfPutfShort src e => Sys2Proof.Machine.execXfPutfShort src e s
  | .xfGathfShort src e => Sys2Proof.Machine.execXfGathfShort src e s
  | .xfScatfShort src e => Sys2Proof.Machine.execXfScatfShort src e s
  | .xfAmonShort src e => Sys2Proof.Machine.execXfAmonShort src e s
  | .xfFlushShort src e => Sys2Proof.Machine.execXfFlushShort src e s
  | .xfCommitShort src e => Sys2Proof.Machine.execXfCommitShort src e s
  | .xfWaitShort src e => Sys2Proof.Machine.execXfWaitShort src e s
  | .brJmp src e => Sys2Proof.Machine.execBrJmp src e s
  | .brJr src e => Sys2Proof.Machine.execBrJr src e s
  | .brBz src e => Sys2Proof.Machine.execBrBz src e s
  | .brBnz src e => Sys2Proof.Machine.execBrBnz src e s
  | .brBltz src e => Sys2Proof.Machine.execBrBltz src e s
  | .brBgez src e => Sys2Proof.Machine.execBrBgez src e s
  | .brBeq src e => Sys2Proof.Machine.execBrBeq src e s
  | .brCall src e => Sys2Proof.Machine.execBrCall src e s
  | .brCallr src e => Sys2Proof.Machine.execBrCallr src e s
  | .brRet src e => Sys2Proof.Machine.execBrRet src e s
  | .brLoop src e => Sys2Proof.Machine.execBrLoop src e s
  | .brJmpShort src e => Sys2Proof.Machine.execBrJmpShort src e s
  | .brJrShort src e => Sys2Proof.Machine.execBrJrShort src e s
  | .brBzShort src e => Sys2Proof.Machine.execBrBzShort src e s
  | .brBnzShort src e => Sys2Proof.Machine.execBrBnzShort src e s
  | .brBltzShort src e => Sys2Proof.Machine.execBrBltzShort src e s
  | .brBgezShort src e => Sys2Proof.Machine.execBrBgezShort src e s
  | .brBeqShort src e => Sys2Proof.Machine.execBrBeqShort src e s
  | .brCallShort src e => Sys2Proof.Machine.execBrCallShort src e s
  | .brCallrShort src e => Sys2Proof.Machine.execBrCallrShort src e s
  | .brRetShort src e => Sys2Proof.Machine.execBrRetShort src e s
  | .brLoopShort src e => Sys2Proof.Machine.execBrLoopShort src e s
  | .sySync src e => Sys2Proof.Machine.execSySync src e s
  | .syArrive src e => Sys2Proof.Machine.execSyArrive src e s
  | .syWaitrel src e => Sys2Proof.Machine.execSyWaitrel src e s
  | .syHalt src e => Sys2Proof.Machine.execSyHalt src e s
  | .syTfence src e => Sys2Proof.Machine.execSyTfence src e s
  | .syPhint src e => Sys2Proof.Machine.execSyPhint src e s
  | .syCdopen src e => Sys2Proof.Machine.execSyCdopen src e s
  | .syCdclose src e => Sys2Proof.Machine.execSyCdclose src e s
  | .syCtrig src e => Sys2Proof.Machine.execSyCtrig src e s
  | .syChk tok src e => Sys2Proof.Machine.execSyChk tok src e s
  | .syGuard src e => Sys2Proof.Machine.execSyGuard src e s
  | .syWatch src e => Sys2Proof.Machine.execSyWatch src e s
  | .syBrk src e => Sys2Proof.Machine.execSyBrk src e s
  | .sySysreq src e => Sys2Proof.Machine.execSySysreq src e s
  | .sySyncShort src e => Sys2Proof.Machine.execSySyncShort src e s
  | .syArriveShort src e => Sys2Proof.Machine.execSyArriveShort src e s
  | .syWaitrelShort src e => Sys2Proof.Machine.execSyWaitrelShort src e s
  | .syHaltShort src e => Sys2Proof.Machine.execSyHaltShort src e s
  | .syTfenceShort src e => Sys2Proof.Machine.execSyTfenceShort src e s
  | .syPhintShort src e => Sys2Proof.Machine.execSyPhintShort src e s
  | .syCdopenShort src e => Sys2Proof.Machine.execSyCdopenShort src e s
  | .syCdcloseShort src e => Sys2Proof.Machine.execSyCdcloseShort src e s
  | .syCtrigShort src e => Sys2Proof.Machine.execSyCtrigShort src e s
  | .syChkShort src e => Sys2Proof.Machine.execSyChkShort src e s
  | .syGuardShort src e => Sys2Proof.Machine.execSyGuardShort src e s
  | .syWatchShort src e => Sys2Proof.Machine.execSyWatchShort src e s
  | .syBrkShort src e => Sys2Proof.Machine.execSyBrkShort src e s
  | .sySysreqShort src e => Sys2Proof.Machine.execSySysreqShort src e s
  | .tgLook src e => Sys2Proof.Machine.execTgLook src e s
  | .tgSet src e => Sys2Proof.Machine.execTgSet src e s
  | .tgInv src e => Sys2Proof.Machine.execTgInv src e s
  | .tgRead src e => Sys2Proof.Machine.execTgRead src e s
  | .tgLookShort src e => Sys2Proof.Machine.execTgLookShort src e s
  | .tgSetShort src e => Sys2Proof.Machine.execTgSetShort src e s
  | .tgInvShort src e => Sys2Proof.Machine.execTgInvShort src e s
  | .tgReadShort src e => Sys2Proof.Machine.execTgReadShort src e s
  | .crRd src e => Sys2Proof.Machine.execCrRd src e s
  | .crWr src e => Sys2Proof.Machine.execCrWr src e s
  | .crRdShort src e => Sys2Proof.Machine.execCrRdShort src e s
  | .crWrShort src e => Sys2Proof.Machine.execCrWrShort src e s
  | .mDieHalfLost br half => Sys2Proof.Machine.execMDieHalfLost br half s
  | .cDieLost col row => Sys2Proof.Machine.execCDieLost col row s

end Sys2Proof.Machine
end

