-- ==== Sys2Proof/Machine/Timetable.lean ====
section
/-! DEFINITION. The timetable of a stitch (spec/02_stitch_time.md R26 to R31, R35; spec/03_core.md R66, R69, R70; spec/05_memory.md R118, R129): what is
due in a stitch of a region, in the order in which the model does it, and the end of the stitch. Within a stitch, control comes first, then
landings, then the issue of bundles, then the reads and writes of banks and of engines, and then the effects of far writes and of engines' writes
(log entry 15). -/
namespace Sys2Proof.Machine

/-- Put an event on the list if a condition holds. -/
def evIf (b : Bool) (i : Instr) : List Task := if b then [.ev i] else []

/-! ## Stage 0: control -/

/-- Is a stitch reached by a mark that may be absent? -/
def reached (x : Option Nat) (t : Nat) : Bool := match x with | some h => decide (h ≤ t) | none => false

/-- The control events due in stitch `t` of a region: hold, release, pre-emption, watchdog, the checks of same-stitch operations, plan releases. -/
def State.controlDue (s : State) (rg : Nat) : List Task :=
  let r := s.rgn rg
  let t := r.clk.sc
  evIf (reached r.seg.holdAt t) (.hold rg) ++
  evIf (r.seg.relDue == some t) (.drawstringRelease rg) ++
  evIf (reached (r.pre.req.map (fun q => q + r.d.dr)) t && !r.pre.armed && !r.pre.forced && r.pre.point.isNone) (.preemptArm rg) ++
  evIf (reached (r.pre.req.map (fun q => q + r.d.plimit)) t && !r.pre.forced && r.pre.point.isNone) (.preemptForce rg) ++
  evIf (decide (r.d.wdog ≤ r.clk.ssc) && !r.hung && !s.allHalted r t) (.hang rg) ++
  (r.same.filter (fun k => k.op == .phint && decide (k.at_ + r.d.dr ≤ t))).map (fun k => .ev (.phintMismatch rg k.at_)) ++
  ((r.same.filter (fun k => k.op != .phint && decide (k.at_ + r.d.dr ≤ t))).map (fun k => k.at_)).eraseDups.map (fun a => .ev (.cdStitchMismatch rg a)) ++
  (r.plans.filter (fun p => p.rel == some t && !p.run)).map (fun p => .ev (.planRelease rg p.handle))

/-! ## Stage 1: landings -/

/-- Is the idle count of a core run out? -/
def Core.idleOver (c : Core) (t : Nat) : Bool := match c.issue with | .idle r => decide (r ≤ t) | _ => false
/-- The beats of a send that reach a router in stitch `t`. -/
def Route.beatsAt (e : Route) (x : Xfer) (t : Nat) : List Nat :=
  let l := if e.d = 0 ∧ e.f = 0 then (List.range (e.h + 1)).filterMap (fun i => if x.trig + 2 + 2 * i ≤ t then some (t - (x.trig + 2 + 2 * i)) else none)
    else (if x.trig + 2 ≤ t then [t - (x.trig + 2)] else []) ++ (if x.land0 ≤ t + 2 then [t + 2 - x.land0] else [])
  l.filter (fun j => decide (j < x.beats))
/-- The landings, ends of idle counts, and flits of one core. -/
def State.landDue (s : State) (rg : Nat) (r : Region) (c : Nat) : List Task :=
  let t := r.clk.sc
  let k := s.core (r.d.coreAt c)
  evIf (k.landsAt t) (.landing rg c) ++ evIf (k.idleOver t) (.idleEnd rg c) ++
  k.xf.xfers.flatMap (fun x => if x.kind = .send then
    (match mget r.routes x.route with | some e => (e.beatsAt x t).map (fun j => .ev (.routerFlit rg c x.trig j)) | none => []) else [])

/-! ## Stage 3: banks, far reads and engines -/

/-- The banks that claims name, each once, in ascending order. -/
def banksOf (l : List ClaimRec) : List Nat := (l.map (fun q => q.1)).eraseDups.foldl (fun m b => insertBy id b m) []
/-- The bank slots and landing beats of one core; bank 3 stands for beats that no recv expects. -/
def State.slotsDue (s : State) (rg : Nat) (r : Region) (c : Nat) : List Task :=
  let t := r.clk.sc
  let id := r.d.coreAt c
  let cl := s.scrClaims r id t
  (banksOf cl).map (fun b => .ev (.bankSlot rg c b)) ++
  (banksOf (cl.filter (fun q => match q.2.2 with | .land _ _ => true | _ => false))).map (fun b => .ev (.beatLanding rg c b)) ++
  evIf ((s.arrivals r id t).any (fun q => !(s.core id).expects q.1 t)) (.beatLanding rg c 3)
/-- Is `t` the stitch of some beat of a run that starts at `a`? -/
def beatAt (x : Xfer) (a t : Nat) : List Nat := if a ≤ t ∧ t < a + x.beats then [t - a] else []
/-- The probes, decisions and reads of far beats of one core. -/
def State.farReads (s : State) (rg : Nat) (r : Region) (c : Nat) : List Task :=
  let t := r.clk.sc
  (s.core (r.d.coreAt c)).xf.xfers.flatMap (fun x => if x.isFar then
    (beatAt x (x.probeAt 0) t).map (fun j => .ev (.farProbe rg c x.trig j)) ++
    (x.bad.filter (fun q => q.2 == t)).map (fun q => .ev (.rebuildDecision rg c x.trig q.1)) ++
    (if x.farRead then (beatAt x x.slot0 t).map (fun j => .ev (.farRead rg c x.trig j)) else []) else [])

/-! ## Stage 4: effects -/

/-- The effects of far beats of one core. -/
def State.farWrites (s : State) (rg : Nat) (r : Region) (c : Nat) : List Task :=
  let t := r.clk.sc
  (s.core (r.d.coreAt c)).xf.xfers.flatMap (fun x => if x.farWrite then
    (beatAt x x.slot0 t ++ beatAt x (x.slot0 + 300) t).filterMap (fun j => if !(x.dueRuns j t).isEmpty ∧ !x.gone.contains j ∧ (mget x.data j).isSome then some (.ev (.farWriteEffect rg c x.trig j)) else none)
    else [])
/-- The ranks that hold something due, for ENGINE_WRITE. -/
def Region.enginesDue (rg : Nat) (r : Region) (due : Rank → Bool) : List Task :=
  r.plans.flatMap (fun p => (List.range p.ranks.length).filterMap (fun k => if due (p.rank k) then some (.ev (.engineWrite rg p.handle k)) else none))
def Rank.tokenDue (t : Nat) (k : Rank) : Bool := k.tokens.any (fun w => w.due == t)
def Rank.writeDue (t : Nat) (k : Rank) : Bool := k.writes.any (fun w => w.due == t)

/-! ## The stages -/

/-- What is due in a stage of the present stitch of a region. -/
def State.due (s : State) (rg stage : Nat) : List Task :=
  let r := s.rgn rg
  let t := r.clk.sc
  let each := fun (f : Nat → List Task) => (List.range r.d.ncore).flatMap f
  match stage with
  | 0 => s.controlDue rg
  | 1 => each (s.landDue rg r) ++ Region.enginesDue rg r (Rank.tokenDue t)
  | 2 => each (fun c =>
      let k := s.core (r.d.coreAt c)
      if k.issue = .issuing then evIf (k.redir.any (fun q => decide (q.due ≤ t))) (.branchRedirect rg c) ++ [.ev (.bundleIssue rg c)] else [])
  | 3 => each (s.slotsDue rg r) ++ (banksOf (s.nearClaims r t)).map (fun b => .ev (.nearBankAccess rg b)) ++ each (s.farReads rg r) ++
      (s.opsDue r t).map (fun q => .op q.1 q.2.1 q.2.2.1 q.2.2.2)
  | 4 => each (s.farWrites rg r) ++ Region.enginesDue rg r (Rank.writeDue t) ++ evIf (r.closing.isSome && r.applyAt == t) (.journalApply rg)
  | _ => evIf (r.d.coreIds.all (fun id => (s.core id).isHalted) && s.quiet r t) (.regionEnd rg)

/-- A core at the end of stitch `t`: the register writes are made, and accesses and transfers that are over are dropped; the flags of the rows stored in
the stitch are in VSTAT. -/
def Core.stitchEnd (c : Core) (t : Nat) : Core :=
  let c1 := c.endStitch
  { c1 with
    banks := c1.banks.filter (fun b => decide (t < b.due))
    mx := { c1.mx with rowFl := [] }
    xf := { c1.xf with xfers := c1.xf.xfers.filter (fun x => decide (t < x.lastAt)) } }

/-- A plan at the end of stitch `t`: at its last offset it is complete (R275). -/
def Plan.stitchEnd (p : Plan) (t : Nat) : Plan :=
  let q := { p with ranks := p.ranks.map (fun k => { k with void := [] }) }
  match p.rel with
  | some r => if p.run ∧ r + p.clen ≤ t then { q with rel := none, run := false, fin := r + p.clen + 1 } else q
  | none => q

/-- The drawstring at the end of a stitch: when every member has arrived, the release is due Dr later (R39). -/
def State.pullString (s : State) (rg : Nat) : State :=
  let r := s.rgn rg
  let t := r.clk.sc
  if r.seg.relDue.isNone && r.seg.mask != 0 && r.d.coreIds.all (fun id => !r.member id || (s.core id).arrived) && !r.d.coreIds.all (fun id => (s.core id).isHalted) then
    s.setRgn rg { r with seg := { r.seg with relDue := some (t + r.d.dr) } }
  else s

/-- The end of the present stitch of a region: its cores' register writes, its drawstring, its domains and its plans; then the counters advance,
and the next stitch begins k cycles after this one (R26, R35, R53). -/
def State.endStitch (s : State) (rg : Nat) : State :=
  let t := (s.rgn rg).clk.sc
  let s1 := (s.rgn rg).d.coreIds.foldl (fun s id => s.modCore id (fun c => c.stitchEnd t)) s
  let s2 := (s1.pullString rg).domainsAt rg t
  s2.modRgn rg (fun r => { r with
    plans := r.plans.map (fun p => p.stitchEnd t)
    clk := { r.clk with sc := r.clk.sc + 1, ssc := r.clk.ssc + 1 }
    work := { stage := 0, agenda := [], next := r.work.next + r.d.ease + 1 } })

/-- Go on to the next stage of the present stitch of a region, or to its end. -/
def State.nextStage (s : State) (rg : Nat) : State :=
  let r := s.rgn rg
  if r.work.stage < 6 then s.setRgn rg { r with work := { r.work with stage := r.work.stage + 1, agenda := s.due rg r.work.stage } }
  else s.endStitch rg

end Sys2Proof.Machine
end

