-- ==== Sys2Proof/Machine/Fetch.lean ====
section
/-! DEFINITION. What the machine does next (log entry 6): the rest of the bundle being issued, an event from outside or from a unit that works in
wall-clock time, the timetable of a region whose stitch is due, or the passing of a cycle (spec/02_stitch_time.md R26, R31). -/
namespace Sys2Proof.Machine

/-- What comes next: an instruction to run, with the state that it is taken from; a step of the timetable that runs none; or nothing that the
machine can do. -/
inductive Doing where
  | run (i : Instr) (s : State)
  | quiet (s : State)
  | stale
deriving DecidableEq

/-- The running region of lowest number whose next stitch has begun. -/
def State.dueRegion (s : State) : Option Nat := (s.regions.find? (fun r => r.2.d.state == 2 && decide (r.2.work.next ≤ s.pcyc))).map Prod.fst

/-- A cycle passes: the groups of protected links, and the replies that wait for accesses to be made. -/
def State.cycle (s : State) : State := let t := s.sendGroups.tcReplies; { t with pcyc := t.pcyc + 1 }

/-- Fetch the move at an address of the acting core's instruction memory (spec/06_encoding.md R143). -/
noncomputable def State.fetchMove (s : State) (a : Nat) (rest : List Nat) : Doing :=
  match decode (Memory.readN s.fc.imem a 8) with
  | some (i, _) => .run i { s with focus := { s.focus with moves := rest } }
  | none => .stale

/-- Fetch an op word of an engine, as the iteration has it (spec/11_puzil.md R271, R294). A plan that is no longer there executes nothing. -/
def State.fetchOp (s : State) (rg h k w i : Nat) : Doing :=
  match (s.rgn rg).plan h with
  | none => .quiet s
  | some p =>
    match decodePuzil (opWordAt (s.prog (p.rank k)) w i) with
    | some x => .run x { s with focus := { s.focus with rg := rg, eng := some (h, k, w, i) } }
    | none => .quiet s

/-- The next task of a region whose stitch is due, or a cycle passes. -/
def State.nextTask (s : State) : Doing :=
  match s.dueRegion with
  | none => .quiet s.cycle
  | some rg =>
    match (s.rgn rg).work.agenda with
    | [] => .quiet (s.nextStage rg)
    | t :: l =>
      let s1 := s.modRgn rg (fun r => { r with work := { r.work with agenda := l } })
      match t with
      | .ev i => .run i s1
      | .op h k w i => s1.fetchOp rg h k w i

/-- What the machine does next. -/
noncomputable def State.doing (s : State) : Doing :=
  match s.focus.moves with
  | a :: l => s.fetchMove a l
  | [] =>
    match s.inputs with
    | (c, i) :: l => if c ≤ s.pcyc then .run i { s with inputs := l } else s.nextTask
    | [] => s.nextTask

/-! ## An instruction placed to run next -/

/-- A running region of one core at the origin (log entry 16). -/
def probeRegion (s : State) : Region :=
  { d := { state := 2, x0 := 0, y0 := 0, wid := 1, hgt := 1, npkg := 1 }, work := { next := s.pcyc } }

/-- Place the bits of a move at address 0 of core 0, in a running region of that core, as the rest of a bundle that issues. -/
def State.placeMove (s : State) (w : Nat) : State :=
  let c := s.core 0
  ({ s with focus := { rg := 0, core := 0, moves := [0], eng := none } }.setRgn 0 (probeRegion s)).setCore 0
    { c with imem := Memory.writeN c.imem 0 (wordBytes 8 w), issue := .issuing }

/-- Place an op word as the program of an engine of a running plan, due in the present stitch. -/
def State.placeOp (s : State) (w : Nat) : State :=
  let p : Plan := { handle := 1, ranks := [{ engine := 0, base := 0, words := 1 }], clen := 2 ^ 24, rel := some 0, run := true }
  let r := probeRegion s
  { s with
    focus := { rg := 0 }, inputs := s.inputs.filter (fun q => decide (s.pcyc < q.1))
    engines := mset s.engines 0 (mset (mgetD s.engines 0 []) 0 (BitVec.ofNat 128 w)) }.setRgn 0
    { r with plans := [p], work := { r.work with stage := 4, agenda := [.op 1 0 0 0] } }

end Sys2Proof.Machine
end

