-- ==== Sys2Proof/Machine/Step.lean ====
section
/-! DEFINITION. One step of the machine: what comes next is fetched and run (log entry 6). -/
namespace Sys2Proof.Machine

/-- One step: run the instruction that comes next, or let the timetable or the clock go on. -/
noncomputable def step (s : State) : Host.Outcome State Fault Refusal :=
  match s.doing with
  | .run i t => exec i t
  | .quiet t => .next t
  | .stale => .fault .staleMoveQueue

/-- The state with an instruction placed to be run by the next step: a 128-bit word as an engine's op, any other as a move (log entry 16). -/
def State.withFetchWord (s : State) (nbits w : Nat) : State := if nbits = 128 then s.placeOp w else s.placeMove (w % 2 ^ nbits)

end Sys2Proof.Machine
end

