-- ==== Sys2Proof/Safety.lean ====
section
/-! DEFINITION. The terms in which claims are stated: the invariant of a state, what a move carries, the state that a trigger leaves, and the
results of operations as the spec's tables give them, on fixed-width words. -/
namespace Sys2Proof.Machine

/-! ## Memory -/

/-- Every memory is in canonical form, addresses strictly rising and no byte listed that reads as zero (log entry 3): near memory, the MV buffers, far
memory, the scratchpad and instruction memory of every core, and the scratchpads kept for saved regions. -/
def State.memWf (s : State) : Prop :=
  Memory.wf s.near = true ∧ Memory.wf s.mv = true ∧ Memory.wf s.far = true ∧
  (∀ q ∈ s.cores, Memory.wf q.2.scr = true ∧ Memory.wf q.2.imem = true) ∧
  (∀ q ∈ s.regions, ∀ k, q.2.saved = some k → ∀ c ∈ k.cores, Memory.wf c.2.scr = true)

/-- The regions that a repair has to find held, for the repairs that wait for that (spec/01_panel.md R25; spec/16_faults_recovery.md R368, R402):
those with a core in the row, at or east of the column, on the die, over the seam or the bridge, or with an access due at the H-die or a way across its
port. -/
def State.repairUsers (s : State) (i : Instr) : Option (List Nat) :=
  match i with
  | .coreRetire dc dr row _ =>
    if (mget s.maps.retired (64 * dc + 8 * dr + row)).isNone then
      some (s.regionsThat (fun r => match s.dieAt dc dr with | some (u, v) => r.inRow u v row | none => false)) else none
  | .columnDarn col => if s.maps.darned.isNone then some (s.regionsThat (fun r => decide (8 * col < r.d.x0 + r.d.wid))) else none
  | .remoteDarn u v (some p) => if Config.inDomain p.1 then some (s.regionsThat (fun r => r.onDie u v)) else none
  | .bridgeHalfRemap br _ => some (s.regionsThat (fun r => r.usesBridge s.maps br))
  | .channelSwap seam false => some (s.regionsThat (fun r => r.usesSeam seam))
  | .hDieDarnInService h => if !s.hGone h && (mget s.hdies.copy (s.hPhys h)).isSome then some (s.regionsThat (fun r => s.dueAt r h || r.usesPort h)) else none
  | _ => none

/-- The machine goes on. -/
def State.goesOn (s : State) : Prop := ∃ t, step s = .next t

/-! ## Moves and triggers -/

/-- The value that a move carries, before its destination takes the low bits of it (spec/03_core.md R65; spec/06_encoding.md R152). -/
def moveValue (c : Core) (mv : Move) : Nat :=
  match mv with
  | .short x _ _ => c.src x.wide
  | .transport x _ _ _ _ _ _ => c.src x
  | .imm _ x _ => immValue x
  | .long _ p x _ => longValue p x
  | _ => 0

/-- The operation that a move triggers: a compact op triggers none in this sense, since it moves nothing to a port (R148). -/
def moveFires (mv : Move) : Option Op :=
  match mv with
  | .short _ (.trig o) _ | .transport _ (.trig o) _ _ _ _ _ | .imm (.trig o) _ _ | .long (.trig o) _ _ _ => some o
  | _ => none

/-- The plain destination of a move. -/
def movePlainDst (mv : Move) : Option PlainDst :=
  match mv with
  | .short _ (.plain d) _ => some (ShortDst.plain d)
  | .transport _ (.plain d) _ _ _ _ _ | .imm (.plain d) _ _ | .long (.plain d) _ _ _ => some d
  | _ => none

/-- What a move carries to the operation that it triggers: the value, MOD, the group mask (all ones without a mask) with Z, and the pointer of a
`+` form (spec/06_encoding.md R151, R157, R158). -/
def moveTrig (c : Core) (o : Op) (mv : Move) : Trig :=
  match mv with
  | .transport x _ q k z m _ => { o := o, b := c.src x, m := m, gm := if q then c.maskBits k else BitVec.allOnes 64, z := z, ptr := ptrOf o m x }
  | mv => { o := o, b := moveValue c mv, m := 0, gm := BitVec.allOnes 64, z := false, ptr := none }

/-- The content of operand port `k` of a unit. -/
def portVal (c : Core) (u : UnitId) (k : Nat) : Vec := match k with | 0 => (c.unit u).o0 | 1 => (c.unit u).o1 | _ => (c.unit u).o2

/-- `i` is a well-formed move that triggers `o` in state `s`, carrying `x`: any long or short form, with any source or immediate. -/
def Fires (i : Instr) (o : Op) (x : Trig) (s : State) : Prop :=
  i.wf = true ∧ ∃ mv, i.toMove = some mv ∧ moveFires mv = some o ∧ x = moveTrig s.fc o mv

/-- The operation's unit is free, and no operand value makes it illegal (spec/03_core.md R71; spec/06_encoding.md R160). -/
def Ready (o : Op) (x : Trig) (s : State) : Prop :=
  s.fc.opBusy o s.sc = false ∧ operandBad o s.fr s.focus.core s.fc x.b (s.fc.unit o.unit).o0.toNat = none

/-- The acting core after a trigger that the unit takes: port o1 has the value, the unit is occupied for `n` stitches, and landing records are
left. Nothing else of the core changes. -/
def Core.took (c : Core) (u : UnitId) (t b n : Nat) (ls : List Landing) : Core :=
  { (c.writePort u 1 b).occupy u t n with lands := c.lands ++ ls }

/-- The state after a trigger that does no more than that: nothing else of the machine changes. -/
def State.took (s : State) (u : UnitId) (b n : Nat) (ls : List Landing) : State := s.setFc (s.fc.took u s.sc b n ls)

/-- The state after a trigger that is turned away: its port has the value, and nothing else changes but the record that is raised. -/
def State.wrote (s : State) (u : UnitId) (b : Nat) : State := s.modFc (fun c => c.writePort u 1 b)
/-- The state after a trigger one of whose checks fails: its port has the value, and the fault is raised, with the operation and its bundle. -/
def State.trapped (s : State) (o : Op) (x : Trig) (f : FaultInfo) : State :=
  (s.wrote o.unit x.b).raiseHere { f with dst := o.dst, baddr := s.fc.cur }
/-- The fault of a failed check of an mx operation or of a write of a tile's configuration, with the words of spec/12_programs_core.md R300 and
spec/14_system_state.md R315: the control word, the tile's configuration, and the tile, the check with its descriptor, and the finish of the operation
that targets the tile. -/
def State.mxInfo (s : State) (code ctl tile check idx : Nat) : FaultInfo :=
  { code := code, w5 := ctl, w6 := (s.fc.acfg tile).toNat,
    w7 := (match s.fc.mx.targeted tile s.sc with | some f => 2 ^ 63 + f % 2 ^ 48 | none => 0) + tile * 2 ^ 48 + idx * 2 ^ 57 + check * 2 ^ 52 }
/-- The fault of a failed check of an xf operation: its code and words 5 to 7. -/
def xfInfo (f : Nat × Nat × Nat × Nat) : FaultInfo := { code := f.1, w5 := f.2.1, w6 := f.2.2.1, w7 := f.2.2.2 }

/-- A landing record of a 64-bit value on a latch, `l` stitches after stitch `t`. -/
def lands64 (u : UnitId) (hi : Bool) (t l : Nat) (x : W64) (fl : Flags) : Landing :=
  { due := t + l, trig := t, tgt := .latch u hi (x.setWidth 2048) 0, fl := fl }

/-! ## Scalar results (spec/07_scalar_ops.md) -/

/-- One or zero. -/
def oneIf (p : Bool) : W64 := if p then 1 else 0
/-- The place of the lowest of 64 numbers that satisfies a test; 64 when none does. -/
def firstOf64 (p : Nat → Bool) : Nat := ((List.range 64).find? p).getD 64

/-- The table of R174 and R175. -/
def iaResult (o : IaOp) (a b c : W64) : W64 :=
  let n := b.toNat % 64
  let p := (b.extractLsb' 0 6).toNat
  let l := min 64 (b.extractLsb' 6 7).toNat
  match o with
  | .add => a + b
  | .sub => a - b
  | .and => a &&& b
  | .or => a ||| b
  | .xor => a ^^^ b
  | .shl => a <<< n
  | .shr => a >>> n
  | .sra => a.sshiftRight n
  | .sel => if b = 0 then c else a
  | .cmpeq => oneIf (a == b)
  | .cmplt => oneIf (a.slt b)
  | .cmpltu => oneIf (a.ult b)
  | .min => if a.slt b then a else b
  | .max => if a.slt b then b else a
  | .andn => a &&& ~~~b
  | .rotl => a.rotateLeft n
  | .minu => if a.ult b then a else b
  | .maxu => if a.ult b then b else a
  | .cmpne => oneIf (a != b)
  | .cmpge => oneIf (b.sle a)
  | .cmpgeu => oneIf (b.ule a)
  | .bfx => let x := (a >>> p) <<< (64 - l); if b.getLsbD 13 then x.sshiftRight (64 - l) else x >>> (64 - l)
  | .bfi => let m := (BitVec.allOnes 64 >>> (64 - l)) <<< p; (a &&& ~~~m) ||| ((c <<< p) &&& m)
  | .clz => BitVec.ofNat 64 (firstOf64 (fun i => b.getLsbD (63 - i)))
  | .ctz => BitVec.ofNat 64 (firstOf64 (fun i => b.getLsbD i))
  | .popc => BitVec.ofNat 64 ((List.range 64).countP (fun i => b.getLsbD i))
  | .pset => (c &&& 0x1fffff) <<< 37 ||| (b &&& 0xffff) <<< 21 ||| (a &&& 0x1fffff)

/-- What a multiply of R177 lands on im.r. -/
def imProduct (o : ImOp) (a b : W64) : W64 :=
  match o with
  | .mulh => (a.signExtend 128 * b.signExtend 128).extractLsb' 64 64
  | .mulhu => (a.setWidth 128 * b.setWidth 128).extractLsb' 64 64
  | _ => a * b
/-- Quotient and remainder of the div family (R177, R95): division by zero gives all ones and the dividend. -/
def imQuotient (signed : Bool) (a b : W64) : W64 := if b = 0 then BitVec.allOnes 64 else if signed then a.sdiv b else a / b
def imRemainder (signed : Bool) (a b : W64) : W64 := if b = 0 then a else if signed then a.srem b else a % b

/-- Is a branch taken (R180)? -/
def brTaken (o : BrOp) (b c : W64) : Bool :=
  match o with
  | .jmp | .jr | .call | .callr | .ret => true
  | .bz => b == 0
  | .bnz => b != 0
  | .bltz => b.slt 0
  | .bgez => (0 : W64).sle b
  | .beq => b == c
  | .loop => b != 1
/-- The target of a branch, before it is reduced (R180); `B` is the address of the bundle and `link` what br.r holds. -/
def brTarget (o : BrOp) (B : Nat) (a b link : W64) : Nat :=
  match o with
  | .jmp | .call => b.toNat
  | .jr | .callr => B + b.toNat
  | .ret => link.toNat
  | _ => a.toNat
/-- What a branch lands on br.r (R180). -/
def brLands (o : BrOp) (b ra : W64) : Option W64 :=
  match o with
  | .call | .callr => some ra
  | .loop => some (b - 1)
  | _ => none

/-! ## Numbers (spec/04_numbers.md R92, R96, R97, R99) -/

/-- The number that a finite value is. -/
def FV.number (v : FV) : Option Rat := match v with | .fin n m e => some ((if n then -1 else 1) * (m : Rat) * 2 ^ e) | _ => none
/-- The number that a pattern of a format stands for, if it is finite. -/
def FFmt.number (F : FFmt) (x : Nat) : Option Rat := (F.unpack x).number
/-- The absolute value of a number. -/
def ratAbs (x : Rat) : Rat := if x < 0 then -x else x

/-- A result is the number `v` rounded once to the format: of the numbers of the format the largest that is not above `v`, the smallest that is not
below it, the one toward zero of the two, or the nearest, and of two that are as near the one with an even pattern. NX says that it is not `v`, and
UF that moreover it lies below the smallest normal number. -/
def FR.rounds (F : FFmt) (m : RMode) (v : Rat) (q : FR) : Prop :=
  ∃ w, F.number q.val = some w ∧ (q.fl.getLsbD 0 = true ↔ w ≠ v) ∧ (q.fl.getLsbD 1 = true ↔ w ≠ v ∧ ratAbs w < 2 ^ (1 - (F.bias : Int))) ∧
    ∀ d u, d < 2 ^ F.width → F.number d = some u →
      match m with
      | .rdn => w ≤ v ∧ (u ≤ v → u ≤ w)
      | .rup => v ≤ w ∧ (v ≤ u → w ≤ u)
      | .rtz => ratAbs w ≤ ratAbs v ∧ 0 ≤ w * v ∧ (ratAbs u ≤ ratAbs v → 0 ≤ u * v → ratAbs u ≤ ratAbs w)
      | .rne => ratAbs (w - v) ≤ ratAbs (u - v) ∧ (u ≠ w → ratAbs (w - v) = ratAbs (u - v) → q.val % 2 = 0)

/-- The largest number of a format, and the next multiple of its last place above it. -/
def FFmt.top (F : FFmt) : Rat := (F.number F.maxPat).getD 0
def FFmt.beyond (F : FFmt) : Rat := 2 * F.top - (F.number (F.maxPat - 1)).getD 0
/-- A number whose rounded value exceeds the largest of the format (spec/04_numbers.md R97, R99): under RNE from half way to the next place on, where
a tie goes to the even pattern; toward zero from the next place on; away from zero from the first number above the largest. -/
def FFmt.over (F : FFmt) (m : RMode) (v : Rat) : Prop :=
  match m with
  | .rne => F.top + F.beyond < 2 * ratAbs v ∨ F.top + F.beyond = 2 * ratAbs v ∧ F ≠ .e4m3
  | .rtz => F.beyond ≤ ratAbs v
  | .rup => if 0 < v then F.top < v else F.beyond ≤ ratAbs v
  | .rdn => if v < 0 then F.top < -v else F.beyond ≤ ratAbs v
/-- What an overflow delivers (R97, R99): an infinity or the largest number, by the mode, and in E4M3 the largest number. -/
def FFmt.overflow (F : FFmt) (m : RMode) (neg : Bool) : FR :=
  ⟨F.signPat neg + (if F = .e4m3 || !(match m with | .rne => true | .rtz => false | .rup => !neg | .rdn => neg) then F.maxPat else F.infPat), fOF ||| fNX⟩
/-- A result is the square root of a positive number, rounded once to the format: the largest number of the format that is not above it, the smallest
that is not below it, or the nearest, with NX where it is not exact (R97, R99). -/
def FR.rootOf (F : FFmt) (m : RMode) (x : Rat) (q : FR) : Prop :=
  ∃ w, F.number q.val = some w ∧ 0 < w ∧ q.fl = (if w * w = x then 0 else fNX) ∧
    ∀ d u, d < 2 ^ F.width → F.number d = some u → 0 ≤ u →
      match m with
      | .rup => x ≤ w * w ∧ (x ≤ u * u → w ≤ u)
      | .rne => (u < w → (u + w) * (u + w) ≤ 4 * x) ∧ (w < u → 4 * x ≤ (u + w) * (u + w))
      | _ => w * w ≤ x ∧ (u * u ≤ x → u ≤ w)

/-! ## Lanes (spec/08_vector_ops.md) -/

/-- The integer lane operations of R197 that set no flag, on lanes of `w` bits; none for another operation. -/
def intLane (o : VxOp) {w : Nat} (a b : BitVec w) : Option (BitVec w) :=
  match o with
  | .add => some (a + b)
  | .sub => some (a - b)
  | .mul => some (a * b)
  | .mulh => some ((a.signExtend (2 * w) * b.signExtend (2 * w)).extractLsb' w w)
  | .shl => some (a <<< (b.toNat % w))
  | .shr => some (a >>> (b.toNat % w))
  | .sra => some (a.sshiftRight (b.toNat % w))
  | .max => some (if a.slt b then b else a)
  | .min => some (if b.slt a then b else a)
  | .maxu => some (if a.ult b then b else a)
  | .minu => some (if b.ult a then b else a)
  | _ => none

/-- Lane `i` of width `w` of a vector. -/
def laneBits (x : Vec) (w i : Nat) : BitVec w := x.extractLsb' (w * i) w

/-- The inputs of a vector operation with every group on. -/
def VIn.unmasked (x : VIn) : VIn := { x with gm := BitVec.allOnes 64 }

/-- The inputs of a vector operation that a trigger starts, with the ports as the trigger leaves them (R193). -/
def vecIn (c : Core) (u : UnitId) (x : Trig) : VIn :=
  { a := (c.unit u).o0.toNat, b := x.b % 2 ^ 2048, c := (c.unit u).o2.toNat, m := x.m, gm := x.gm, z := x.z, rm := c.rmode }

/-- The table of R148: full operation, MOD and latency of a compact op. -/
def compactMeans (o : Nat) : Op × BitVec 3 × Nat :=
  match o with
  | 0 => (.vx .fadd, 0, 4) | 1 => (.vx .fsub, 0, 4) | 2 => (.vx .fmul, 0, 4) | 3 => (.vx .fmin, 0, 4) | 4 => (.vx .fmax, 0, 4)
  | 5 => (.vx .fadd, 2, 4) | 6 => (.vx .fmul, 2, 4)
  | 7 => (.vx .add, 0, 2) | 8 => (.vx .sub, 0, 2) | 9 => (.vx .max, 0, 2) | 10 => (.vx .min, 0, 2)
  | 11 => (.vx .and, 0, 2) | 12 => (.vx .or, 0, 2) | 13 => (.vx .xor, 0, 2) | 14 => (.vx .andn, 0, 2)
  | _ => (.vp .perm, 0, 3)
/-- The result of a vector operation of either unit. -/
def vecRun (o : Op) (x : VIn) : VRes := match o with | .vx o => vxRun o x | .vp o => vpRun o x | _ => { r := 0 }

/-! ## The matrix engine (spec/09_matrix_ops.md R231) -/

/-- A landing of words in a tile, two stitches after `t`; `sel` names the row, the column or all of it (spec/15_region_scheduler.md R347). -/
def tileLand (t n sel : Nat) (ws : Map (BitVec 32)) : Landing := { due := t + 2, trig := t, tgt := .tile n sel ws }
/-- A landing on `.r` of 64 lanes of 32 bits. -/
def latchVec (u : UnitId) (t l : Nat) (f : Nat → BitVec 32) : Landing :=
  { due := t + l, trig := t, tgt := .latch u false (BitVec.ofNat 2048 ((List.range 64).foldr (fun j acc => acc * 2 ^ 32 + (f j).toNat) 0)) 0 }

end Sys2Proof.Machine
end

