-- ==== Sys2Proof/Certificates/Slice0/Obligations.lean ====
section
/-! DEFINITION. The statements for the provers, by the chapters of the spec whose rules they state. -/
open Sys2Proof Sys2Proof.Machine

/-! ## Encoding (spec/06_encoding.md; spec/11_puzil.md R278 to R280) -/

/-- Words written out from the tables of R147 to R156 and R278 to R280 decode to the instructions they stand for: short, compact, transport,
immediate, long, idle and nop moves, and Puzil op words. -/
def Obligations.SpecWordsDecode : Prop :=
  decodeTableWord 16 0x540a = some (.ia0AddShort (.g 1) true) ∧
  decodeTableWord 16 0xfc08 = none ∧
  decodeTableWord 16 0x1184 = some (.faddCompact 3 1 false) ∧
  decodeTableWord 32 0x00f83053 = some (.transportMove (.g 3) (.g 5) true) ∧
  decodeTableWord 32 0x17208221 = some (.vxFadd 0 true 3 true (.v 2) false) ∧
  decodeTableWord 32 0x2018c421 = some (.lsLd32 true (.p 2) false) ∧
  decodeTableWord 32 0x02f83053 = none ∧
  decodeTableWord 32 0x12f83345 = some (.immediateMove (.plain (.g 3)) 0x1234 false) ∧
  decodeTableWord 64 0xdeadbeef01f8300b = some (.longImmediateMove (.plain (.g 3)) .zeroExt 0xdeadbeef true) ∧
  decodeTableWord 32 0x0000050d = some (.idle 5 false) ∧
  decodeTableWord 32 0x0000001d = some (.nop false) ∧
  decodeTableWord 128 0xe0000000000000000000000000000000 = some (.puzilEnd 0 0) ∧
  decodeTableWord 128 0xb07000010000000000000000000010a0 = some (.puzilSignal 7 0x10 2 5) ∧
  decodeTableWord 128 0xf0000000000000000000000000000000 = none

/-- Every well-formed move is read back from its own parcels, whatever bytes follow: no field of any format is dropped (R143 to R159). Every
well-formed Puzil op is read back from its own word (R278 to R280). -/
def Obligations.EncodingsAreReadBack : Prop :=
  (∀ (i : Instr) (n w : Nat) (rest : List Byte), i.wf = true → encode i = some (n, w) → n ≠ 128 → decode (wordBytes (n / 8) w ++ rest) = some (i, rest)) ∧
  (∀ (i : Instr) (w : Nat), i.wf = true → encode i = some (128, w) → w < 2 ^ 128 ∧ decodeTableWord 128 w = some i)

/-- What decodes is well-formed, and the bytes that were read are its encoding: every reserved field is checked (R159). The same of Puzil op words:
a word that decodes is the encoding of its op. -/
def Obligations.DecodedWordsAreEncodings : Prop :=
  (∀ (l rest : List Byte) (i : Instr), decode l = some (i, rest) →
      i.wf = true ∧ ∃ n, encode i = some (n, bytesLE (n / 8) l) ∧ rest = l.drop (n / 8)) ∧
  (∀ (w : Nat) (i : Instr), w < 2 ^ 128 → decodePuzil w = some i → i.wf = true ∧ encode i = some (128, w))

/-! ## The step -/

/-- A step runs what it fetches: the move at the next address of the bundle being issued, with the rest of the bundle still to run; else the first
event from outside whose cycle has come; else, while no event from outside is due, the next event or op word of the stitch that is due (log entry
6). -/
def Obligations.StepRunsWhatItFetches : Prop :=
  (∀ (s : State) (a : Nat) (l : List Nat) (i : Instr) (rest : List Byte), s.focus.moves = a :: l → decode (Memory.readN s.fc.imem a 8) = some (i, rest) →
    step s = exec i { s with focus := { s.focus with moves := l } }) ∧
  (∀ (s : State) (c : Nat) (i : Instr) (l : List (Nat × Instr)), s.focus.moves = [] → s.inputs = (c, i) :: l → c ≤ s.pcyc →
    step s = exec i { s with inputs := l }) ∧
  (∀ (s : State) (rg : Nat) (i : Instr) (l : List Task), s.focus.moves = [] → (∀ e ∈ s.inputs, s.pcyc < e.1) → s.dueRegion = some rg →
    (s.rgn rg).work.agenda = .ev i :: l → step s = exec i (s.modRgn rg (fun r => { r with work := { r.work with agenda := l } }))) ∧
  (∀ (s t : State) (rg h k w n : Nat) (l : List Task) (p : Plan) (i : Instr), s.focus.moves = [] →
    (∀ e ∈ s.inputs, s.pcyc < e.1) → s.dueRegion = some rg →
    (s.rgn rg).work.agenda = .op h k w n :: l → t = s.modRgn rg (fun r => { r with work := { r.work with agenda := l } }) →
    (t.rgn rg).plan h = some p → decodePuzil (opWordAt (t.prog (p.rank k)) w n) = some i →
    step s = exec i { t with focus := { t.focus with rg := rg, eng := some (h, k, w, n) } })

/-! ## Moves (spec/03_core.md; spec/06_encoding.md) -/

/-- The value of a source (R65, R152): a short immediate is sign-extended, an immediate of 16 bits too, and a long one by its POS. -/
def Obligations.ImmediateValues : Prop :=
  (∀ (c : Core) (x : BitVec 7), c.src (.imm x) = (x.signExtend 64).toNat) ∧
  (∀ x : BitVec 16, immValue x = (x.signExtend 64).toNat) ∧
  (∀ x : BitVec 32, longValue .signExt x = (x.signExtend 64).toNat ∧ longValue .zeroExt x = (x.setWidth 64).toNat ∧
    longValue .high x = (x.setWidth 64 <<< 32).toNat)

/-- A plain move, in any of its four formats, completes. To an operand port it writes the low bits and leaves every other port, every latch and all
else; to a register it leaves the register until the end of the stitch, when that register alone changes, g0 never (R65, R67, R70, R76).
TRANSPORT_MOVE, SHORT_TRANSPORT_MOVE, IMMEDIATE_MOVE and LONG_IMMEDIATE_MOVE. A move to a v register that a compact op writes back in the same
stitch has no effect but WRITEBACK_COLLISION, with the compact op's identity in its record (R88). A nop does nothing; an idle move of COUNT stitches
makes the core issue nothing before stitch t + 1 + COUNT, unless it has halted (R34, R153). That a p register takes only its low 58 bits is a choice of the
model (spec/00_scope.md R9 as log entry 19 reads it). -/
def Obligations.PlainMoves : Prop :=
  (∀ (i : Instr) (mv : Move) (d : PlainDst) (s : State), i.wf = true → i.toMove = some mv → movePlainDst mv = some d →
      match d with
      | .port u k => ∃ t, exec i s = .next t ∧ t = s.setFc { s.fc with units := t.fc.units } ∧
          portVal t.fc u k.val = BitVec.ofNat 2048 (moveValue s.fc mv % 2 ^ portWidth u k.val) ∧
          (∀ v j, j < 3 → (v ≠ u ∨ j ≠ k.val) → portVal t.fc v j = portVal s.fc v j) ∧
          (∀ v, (t.fc.unit v).r = (s.fc.unit v).r ∧ (t.fc.unit v).h = (s.fc.unit v).h ∧ (t.fc.unit v).trig = (s.fc.unit v).trig ∧
            (t.fc.unit v).occ = (s.fc.unit v).occ)
      | .g n => ∃ t, exec i s = .next t ∧ t = s.setFc { s.fc with endW := t.fc.endW } ∧
          (∀ m, t.fc.endStitch.readG m = if m = n ∧ n ≠ 0 then BitVec.ofNat 64 (moveValue s.fc mv) else s.fc.endStitch.readG m) ∧
          t.fc.endStitch.regs.v = s.fc.endStitch.regs.v ∧ t.fc.endStitch.regs.p = s.fc.endStitch.regs.p
      | .p n => ∃ t, exec i s = .next t ∧ t = s.setFc { s.fc with endW := t.fc.endW } ∧
          (∀ m, t.fc.endStitch.readP m = if m = n then BitVec.ofNat 64 (moveValue s.fc mv % 2 ^ 58) else s.fc.endStitch.readP m) ∧
          t.fc.endStitch.regs.g = s.fc.endStitch.regs.g ∧ t.fc.endStitch.regs.v = s.fc.endStitch.regs.v
      | .v n => s.fc.writtenBack n = none → ∃ t, exec i s = .next t ∧ t = s.setFc { s.fc with endW := t.fc.endW } ∧
          (∀ m, t.fc.endStitch.readV m = if m = n then BitVec.ofNat 2048 (moveValue s.fc mv) else s.fc.endStitch.readV m) ∧
          t.fc.endStitch.regs.g = s.fc.endStitch.regs.g ∧ t.fc.endStitch.regs.p = s.fc.endStitch.regs.p) ∧
  (∀ (i : Instr) (mv : Move) (n : Fin 32) (d b : Nat) (s : State), i.wf = true → i.toMove = some mv → movePlainDst mv = some (.v n) →
      s.fc.writtenBack n = some (d, b) →
      exec i s = .next (s.raiseHere { code := 0x04, dst := d, baddr := b, w5 := 0xfa0 + n.val, w6 := 0xfa0 + n.val })) ∧
  ((∀ (e : Bool) (s : State), exec (.nop e) s = .next s) ∧
    (∀ (n : BitVec 24) (e : Bool) (s : State), ∃ t, exec (.idle n e) s = .next t ∧ t = s.setFc { s.fc with issue := t.fc.issue } ∧
      (s.fc.issue = .issuing → t.fc.issue = if n = 0 then .issuing else .idle (s.sc + 1 + n.toNat)) ∧
      (∀ r, s.fc.issue = .waiting r → t.fc.issue = .waiting (s.sc + 1 + n.toNat)) ∧
      (∀ h, s.fc.issue = .halted h → t.fc.issue = .halted h)))

/-- What a move leaves as it was: every memory, register file, tag, tile, scratchpad and instruction memory, the special registers and latches of
every core; all of every other core but its fault records; every other region; and of its own region all but the hold record, the pre-emption point,
the same-stitch checks, the plans and the journal. Of every move, in every format. -/
def Obligations.MoveFrame : Prop :=
  ∀ (i : Instr) (mv : Move) (s : State), i.toMove = some mv → ∃ t, exec i s = .next t ∧
    t = { s with cores := t.cores, regions := t.regions, inputs := t.inputs, free := t.free } ∧
    (∀ c, c ≠ s.focus.core → t.core c = { s.core c with frec := (t.core c).frec, ovf := (t.core c).ovf }) ∧
    t.fc = { s.fc with units := t.fc.units, issue := t.fc.issue, redir := t.fc.redir, lands := t.fc.lands, banks := t.fc.banks, endW := t.fc.endW,
                       mx := t.fc.mx, xf := t.fc.xf, arr := t.fc.arr, frec := t.fc.frec, ovf := t.fc.ovf } ∧
    (∀ u, (t.fc.unit u).r = (s.fc.unit u).r ∧ (t.fc.unit u).h = (s.fc.unit u).h) ∧
    (∀ n, n ≠ s.focus.rg → t.rgn n = s.rgn n) ∧
    t.fr = { s.fr with seg := t.fr.seg, pre := t.fr.pre, same := t.fr.same, plans := t.fr.plans, journal := t.fr.journal }

/-- A trigger of an occupied unit raises UNIT_BUSY and does nothing else: its port keeps its value (R55, R71). Of any operation. An operand value
that makes an operation illegal raises ILLEGAL_MOVE and leaves the trigger's port unwritten: an unassigned special register, a control word of cvt
or cvt.ef outside its table, a reserved operation of amon (R77, R160, R205, R206, R247). It rests on a choice of the model: log entry 18. -/
def Obligations.TriggersThatTrap : Prop :=
  (∀ (i : Instr) (o : Op) (x : Trig) (s : State), Fires i o x s → s.fc.opBusy o s.sc = true →
      ∃ f : FaultInfo, exec i s = .next (s.raiseHere f) ∧ f.code = 0x03 ∧ f.dst = o.dst ∧ f.baddr = s.fc.cur ∧ f.w5 = o.unit.num) ∧
  (∀ (i : Instr) (o : Op) (x : Trig) (s : State) (rule v : Nat), Fires i o x s → s.fc.opBusy o s.sc = false →
      operandBad o s.fr s.focus.core s.fc x.b (s.fc.unit o.unit).o0.toNat = some (rule, v) →
      ∃ f : FaultInfo, exec i s = .next (s.raiseHere f) ∧ f.code = 0x01 ∧ f.dst = o.dst ∧ f.baddr = s.fc.cur ∧ f.w6 / 2 ^ 8 = rule ∧ f.w7 = v)

/-- Raising a fault: the cause joins the region's record; a running region holds Dh after its earliest cause, and a held one takes its hold stitch
as the cause stitch; a core with fewer than four records gains one with the words of R315, and one with four sets OVF and keeps them; nothing else
changes. It rests on a choice of the model: log entry 24. -/
def Obligations.FaultRecords : Prop :=
  ∀ (s : State) (rg core cs : Nat) (f : FaultInfo),
    let r := s.rgn rg
    let t := s.raise rg core cs f
    let ds := if r.seg.held then r.seg.holdSc else cs
    let h := match r.seg.holdAt with | some h => min h (cs + r.d.dh) | none => cs + r.d.dh
    t = { s with cores := t.cores, regions := t.regions } ∧
    (∀ n, n ≠ rg → t.rgn n = s.rgn n) ∧ (∀ c, c ≠ core → t.core c = s.core c) ∧
    t.rgn rg = { r with seg := { r.seg with
      causes := r.seg.causes ++ [{ code := f.code, cls := f.cls, cs := ds, core := core, tag := f.tag, unit := if f.code = 0x50 then f.w7 else 0 }]
      holdAt := if r.seg.held then r.seg.holdAt else some h } } ∧
    ((s.core core).frec.length < 4 → ∃ w : FRec, t.core core = { s.core core with frec := (s.core core).frec ++ [w] } ∧
      w[0] = BitVec.ofNat 64 (2 ^ 63 + rg * 2 ^ 16 + f.cls % 2 ^ 8 * 2 ^ 8 + f.code) ∧ w[1] = BitVec.ofNat 64 ds ∧
      w[2] = BitVec.ofNat 64 (if r.seg.held then r.seg.holdSc else h) ∧
      w[3] = BitVec.ofNat 64 (f.dst % 2 ^ 12 * 2 ^ 17 + f.baddr % 2 ^ 17) ∧
      w[4] = BitVec.ofNat 64 (core / 96 * 2 ^ 24 + core % 96 * 2 ^ 16 + s.maps.phys core) ∧
      w[5] = BitVec.ofNat 64 f.w5 ∧ w[6] = BitVec.ofNat 64 f.w6 ∧ w[7] = BitVec.ofNat 64 f.w7) ∧
    (4 ≤ (s.core core).frec.length → t.core core = { s.core core with ovf := true })

/-! ## Scalar units (spec/07_scalar_ops.md; spec/05_memory.md R120, R128) -/

/-- Every operation of ia0 and ia1, in every form, lands its value of R174 and R175 on its unit's `.r` at t + 1, with no flag; the unit takes its
next trigger at t + 1; nothing else changes. The DST and DST8 of each are those of the table. All IA rows and their short forms, and the immediate
moves to these triggers. -/
def Obligations.IaResults : Prop :=
  [IaOp.add, .sub, .and, .or, .xor, .shl, .shr, .sra, .sel, .cmpeq, .cmplt, .cmpltu, .min, .max, .andn, .rotl, .minu, .maxu, .cmpne, .cmpge, .cmpgeu,
    .bfx, .bfi, .clz, .ctz, .popc, .pset].map (fun o => Op.dst (.ia .ia0 o)) = (List.range 27).map (fun n => 8 + n) ∧
  (∀ o, Op.dst (.ia .ia1 o) = Op.dst (.ia .ia0 o) + 0x80) ∧
  [IaOp.add, .sub, .and, .or, .xor, .shl, .shr, .sra, .sel, .cmpeq, .cmplt, .cmpltu, .min, .max].map (fun o => (encDst8 (.trig (.ia .ia0 o)),
    encDst8 (.trig (.ia .ia1 o)))) = (List.range 14).map (fun n => (84 + n, 84 + n + 14)) ∧
  ∀ (i : Instr) (u : IaUnit) (o : IaOp) (x : Trig) (s : State), Fires i (.ia u o) x s → (s.fc.unit u.unit).busy s.sc = false →
    exec i s = .next (s.took u.unit x.b 1 [lands64 u.unit false s.sc 1
      (iaResult o (BitVec.ofNat 64 (s.fc.o0 u.unit)) (BitVec.ofNat 64 x.b) (BitVec.ofNat 64 (s.fc.o2 u.unit))) 0])

/-- Every operation of im, in every form (R177, R178): a multiply lands on im.r at t + 3; the div family occupies im for 20 stitches and lands the
remainder on im.h, with DZI for a zero divisor, and the quotient of div and divu on im.r, at t + 20. The DST and DST8 of each are those of the
table. -/
def Obligations.ImResults : Prop :=
  [ImOp.mul, .mulh, .mulhu, .div, .divu, .rem, .remu].map (fun o => (Op.dst (.im o), encDst8 (.trig (.im o)))) = (List.range 7).map (fun n => (0x108 + n, 112 + n)) ∧
  ∀ (i : Instr) (o : ImOp) (x : Trig) (s : State), Fires i (.im o) x s → (s.fc.unit .im).busy s.sc = false →
    let a : W64 := BitVec.ofNat 64 (s.fc.o0 .im)
    let b : W64 := BitVec.ofNat 64 x.b
    let fl : Flags := if b = 0 then fDZI else 0
    exec i s = .next (match o with
      | .mul | .mulh | .mulhu => s.took .im x.b 1 [lands64 .im false s.sc 3 (imProduct o a b) 0]
      | .div => s.took .im x.b 20 [lands64 .im false s.sc 20 (imQuotient true a b) 0, lands64 .im true s.sc 20 (imRemainder true a b) fl]
      | .divu => s.took .im x.b 20 [lands64 .im false s.sc 20 (imQuotient false a b) 0, lands64 .im true s.sc 20 (imRemainder false a b) fl]
      | .rem => s.took .im x.b 20 [lands64 .im true s.sc 20 (imRemainder true a b) fl]
      | .remu => s.took .im x.b 20 [lands64 .im true s.sc 20 (imRemainder false a b) fl])

/-- Every operation of br, in every form (R179, R180): a taken branch leaves a redirect due at t + 3 to its target, reduced to bits [16:1]; call,
callr and loop land on br.r at t + 1; the return address is that after the two delay bundles. The DST and DST8 of each are those of the table. It rests on a choice of the model at the end of
instruction memory: log entry 44. -/
def Obligations.BrResults : Prop :=
  [BrOp.jmp, .jr, .bz, .bnz, .bltz, .bgez, .beq, .call, .callr, .ret, .loop].map (fun o => (Op.dst (.br o), encDst8 (.trig (.br o)))) =
    (List.range 11).map (fun n => (0x408 + n, 196 + n)) ∧
  ∀ (i : Instr) (o : BrOp) (x : Trig) (s : State), Fires i (.br o) x s → (s.fc.unit .br).busy s.sc = false →
    let c := s.fc
    let a : W64 := BitVec.ofNat 64 (c.o0 .br)
    let b : W64 := BitVec.ofNat 64 x.b
    let k : W64 := BitVec.ofNat 64 (c.o2 .br)
    let nx := nextBundle c.imem
    let T := brTarget o c.cur a b ((c.unit .br).r.setWidth 64)
    let t := s.took .br x.b 1 (match brLands o b (BitVec.ofNat 64 (nx (nx (nx c.cur)))) with | some v => [lands64 .br false s.sc 1 v 0] | none => [])
    exec i s = .next (if brTaken o b k then t.modFc (fun c => { c with redir := c.redir ++ [⟨s.sc + 3, T % 2 ^ 17 / 2 * 2⟩] }) else t)

/-- cr.rd, in every form, lands the value of an assigned special register on cr.r at t + 1 (R77, R183). What each special register reads (R77 to
R83): the counters, the core's logical position, the flag register, with the flags of the rows that tile stores write in the stitch (R232), the trap, rounding
and notify registers, the tile configurations, guards, watchpoints and the
four words of each tensor descriptor; every other number is unassigned. It rests on a choice of the model: log entry 19. -/
def Obligations.SpecialRegisterReads : Prop :=
  (∀ (i : Instr) (x : Trig) (s : State) (v : Nat), Fires i (.cr .rd) x s → (s.fc.unit .cr).busy s.sc = false →
      crRead s.fr s.focus.core s.fc (x.b % 2 ^ 12) = some v →
      exec i s = .next (s.took .cr x.b 1 [lands64 .cr false s.sc 1 (BitVec.ofNat 64 v) 0])) ∧
  (∀ (r : Region) (id : Nat) (c : Core),
      crRead r id c 0 = some (r.clk.sc % 2 ^ 64) ∧ crRead r id c 1 = some (r.clk.ssc % 2 ^ 64) ∧ crRead r id c 2 = some (r.d.lpos id) ∧
      crRead r id c 3 = some c.sp.ltinfo.toNat ∧ crRead r id c 0x10 = some (c.mx.rowFl.foldl (fun f q => f ||| q.2) c.sp.vstat).toNat ∧ crRead r id c 0x11 = some c.sp.vtrapen.toNat ∧
      crRead r id c 0x12 = some c.sp.rmode.toNat ∧ crRead r id c 0x13 = some r.clk.cdlev ∧ crRead r id c 0x14 = some c.sp.notify.toNat ∧
      (∀ n : Fin 16, crRead r id c (0x20 + n.val) = some (c.sp.acfg.get n).toNat) ∧
      (∀ n : Fin 4, crRead r id c (0x30 + n.val) = some (c.sp.guard.get n).toNat) ∧
      (∀ n : Fin 2, crRead r id c (0x38 + n.val) = some (c.sp.watch.get n).toNat) ∧
      (∀ (n : Fin 32) (w : Fin 4), crRead r id c (0x100 + 4 * n.val + w.val) = some ((c.sp.td.get n).extractLsb' (64 * w.val) 64).toNat) ∧
      (∀ n, (3 < n ∧ n < 0x10 ∨ 0x14 < n ∧ n < 0x20 ∨ 0x33 < n ∧ n < 0x38 ∨ 0x39 < n ∧ n < 0x100 ∨ 0x17f < n) → crRead r id c n = none))

/-- cr.wr, in every form, leaves a write of an assigned register that takes effect at t + 1, unless it would give a tile an illegal configuration or
reconfigure one that an operation targets, and where it would the core traps instead: TILE_CONFIG for the illegal value, and else TILE_BUSY, with
the tile's number and the words of an mx fault (R81, R217, R300). What the write of a special register does when it lands (R77 to R83): VSTAT and NOTIFY bits
clear where a one is written, VTRAPEN and RMODE take their fields, a tile configuration its fields but for DIRTY, a guard the whole value, a
watchpoint and a descriptor word the bits that are not reserved, and SC, SSC, LPOS, LTINFO and CDLEV ignore it; no other special register changes.
It rests on choices of the model: log entries 18 (a trapping move still writes its port), 19 and 24. -/
def Obligations.SpecialRegisterWrites : Prop :=
  (∀ (i : Instr) (x : Trig) (s : State), Fires i (.cr .wr) x s → Ready (.cr .wr) x s →
      let n := x.b % 2 ^ 12
      (¬(0x20 ≤ n ∧ n < 0x30 ∧ (acfgBad (BitVec.ofNat 64 (s.fc.o0 .cr)) = true ∨ (s.fc.mx.targeted (n - 0x20) s.sc).isSome = true))) →
      exec i s = .next (s.took .cr x.b 1 [{ due := s.sc + 1, trig := s.sc, tgt := .special n (BitVec.ofNat 64 (s.fc.o0 .cr)) false }])) ∧
  (∀ (i : Instr) (x : Trig) (s : State) (n : Fin 16), Fires i (.cr .wr) x s → Ready (.cr .wr) x s → x.b % 2 ^ 12 = 0x20 + n.val →
      let v : W64 := BitVec.ofNat 64 (s.fc.o0 .cr)
      let illegal := v.getLsbD 63 = true ∧ ¬(1 ≤ acfgRows v ∧ acfgRows v ≤ 64 ∧ 1 ≤ acfgCols v ∧ acfgCols v ≤ 64 ∧ acfgType v ≤ 1)
      let trap := fun code => exec i s = .next (s.trapped (.cr .wr) x (s.mxInfo code (x.b % 2 ^ 64) n.val 0 0))
      (illegal → trap 0x24) ∧ (¬illegal → (s.fc.mx.targeted n.val s.sc).isSome = true → trap 0x13)) ∧
  (∀ (p : Specials) (x : W64),
      p.write 0x10 x = { p with vstat := p.vstat &&& ~~~(x.extractLsb' 0 7) } ∧
      p.write 0x11 x = { p with vtrapen := x.extractLsb' 0 7 } ∧
      p.write 0x12 x = { p with rmode := x.extractLsb' 0 2 } ∧
      p.write 0x14 x = { p with notify := p.notify &&& ~~~x } ∧
      (∀ n, n < 4 ∨ n = 0x13 → p.write n x = p) ∧
      (∀ n : Fin 16, p.write (0x20 + n.val) x = { p with acfg := p.acfg.set n.val ((x &&& 0x800000000003ffff) ||| (p.acfg.get n &&& 0x4000000000000000)) }) ∧
      (∀ n : Fin 4, p.write (0x30 + n.val) x = { p with guard := p.guard.set n.val x }) ∧
      (∀ n : Fin 2, p.write (0x38 + n.val) x = { p with watch := p.watch.set n.val (x &&& 0xfc0fffffffffffff) }) ∧
      (∀ (n : Fin 32) (w : Fin 4), p.write (0x100 + 4 * n.val + w.val) x = { p with td := (p.write (0x100 + 4 * n.val + w.val) x).td } ∧
        ∀ m, m ≠ n → (p.write (0x100 + 4 * n.val + w.val) x).td.get m = p.td.get m) ∧
      (∀ (n : Fin 32) (w : Fin 4), (((p.write (0x100 + 4 * n.val + w.val) x).td.get n).extractLsb' (64 * w.val) 64) =
        x &&& BitVec.ofNat 64 (tdWordMask w.val)) ∧
      (∀ (n : Fin 32) (w v : Fin 4), v ≠ w → (((p.write (0x100 + 4 * n.val + w.val) x).td.get n).extractLsb' (64 * v.val) 64) =
        (p.td.get n).extractLsb' (64 * v.val) 64))

/-- The tag operations, in every form (R128, R192): look lands the lowest matching slot, or all ones, and read an entry's data, at t + 3; set and
inv change the table at t + 1. The DST and DST8 of each are those of the table. -/
def Obligations.TgResults : Prop :=
  [TgOp.look, .set, .inv, .read].map (fun o => (Op.dst (.tg o), encDst8 (.trig (.tg o)))) = (List.range 4).map (fun n => (0x508 + n, 224 + n)) ∧
  ∀ (i : Instr) (o : TgOp) (x : Trig) (s : State), Fires i (.tg o) x s → (s.fc.unit .tg).busy s.sc = false →
    let b := x.b % 2 ^ 64
    exec i s = .next (match o with
      | .look => s.took .tg x.b 1 [lands64 .tg false s.sc 3 ((tagLook s.fc.tags (b % 2 ^ 52)).elim (BitVec.allOnes 64) (BitVec.ofNat 64)) 0]
      | .read => s.took .tg x.b 1 [lands64 .tg false s.sc 3 ((mgetD s.fc.tags (b % 256) 0).extractLsb' 0 64) 0]
      | .set =>
        let e : BitVec 128 := BitVec.ofNat 128 (2 ^ 127 + s.fc.o2 .tg % 2 ^ 52 * 2 ^ 64 + s.fc.o0 .tg)
        s.took .tg x.b 1 [{ due := s.sc + 1, trig := s.sc, tgt := .tagSet (b % 256) e }]
      | .inv => s.took .tg x.b 1 [{ due := s.sc + 1, trig := s.sc, tgt := .tagInv (b % 256) }])

/-- A load, store or atomic that passes the checks of R119, in every form, leaves its bank access for t + 1, and a `+` form its pointer update for
the end of the stitch; nothing else changes (R73, R120, R184 to R191). A load, store or atomic outside mapped memory or over a bank's end raises
BOUNDS, and else a misaligned one raises ALIGN; the core does nothing more than write the port (R119, R184). That it writes the port is a choice of the
model: log entry 18. -/
def Obligations.LsAccesses : Prop :=
  (∀ (i : Instr) (o : LsOp) (x : Trig) (s : State), Fires i (.ls o) x s → (s.fc.unit .ls).busy s.sc = false →
      let n := lsSize o x.m
      let b := x.b % 2 ^ 64
      let a := if x.ptr.isSome then b % 2 ^ 21 else b
      a + n ≤ 0x180000 → a / 2 ^ 19 = (a + n - 1) / 2 ^ 19 → a % n = 0 →
      exec i s = .next ((s.took .ls x.b 1 []).modFc (fun c => { c with
        endW := c.endW ++ (match x.ptr with | some p => [.p p (ptrNext (BitVec.ofNat 64 b))] | none => [])
        banks := c.banks ++ [{ due := s.sc + 1, trig := s.sc, dst := Op.dst (.ls o), addr := a, size := n
                               kind := lsKind o n s.fc x, mod := x.m }] }))) ∧
  (∀ (i : Instr) (o : LsOp) (x : Trig) (s : State), Fires i (.ls o) x s → (s.fc.unit .ls).busy s.sc = false →
      let n := lsSize o x.m
      let b := x.b % 2 ^ 64
      let a := if x.ptr.isSome then b % 2 ^ 21 else b
      let s1 := s.modFc (fun c => c.writePort .ls 1 x.b)
      (0x180000 < a + n ∨ a / 2 ^ 19 ≠ (a + n - 1) / 2 ^ 19 →
        exec i s = .next (s1.raiseHere { code := 0x21, dst := Op.dst (.ls o), baddr := s.fc.cur, w5 := a, w6 := n })) ∧
      (a + n ≤ 0x180000 → a / 2 ^ 19 = (a + n - 1) / 2 ^ 19 → a % n ≠ 0 →
        exec i s = .next (s1.raiseHere { code := 0x20, dst := Op.dst (.ls o), baddr := s.fc.cur, w5 := a, w6 := n })))

/-- The post-increment of a pointer (R76, R120): ADDR advances by the signed STRIDE, modulo 2^21, or inside the window of WRAP bytes that holds it
when WRAP is not 0; STRIDE and WRAP stay. -/
def Obligations.PointerAdvance : Prop :=
  ∀ p : W64,
    let a := (p.extractLsb' 0 21).toNat
    let st := (p.extractLsb' 21 16).toInt
    let w := (p.extractLsb' 37 21).toNat
    let q := ptrNext p
    q.extractLsb' 21 43 = p.extractLsb' 21 43 ∧
    (w = 0 → q.extractLsb' 0 21 = BitVec.ofInt 21 ((a : Int) + st)) ∧
    (w ≠ 0 → ((q.extractLsb' 0 21).toNat : Int) = (((a / w * w : Nat) : Int) + (((a % w : Nat) : Int) + st) % (w : Int)) % 2 ^ 21)

/-! ## Vector units (spec/08_vector_ops.md; spec/04_numbers.md) -/

/-- Every vx operation, in every form and with every mask, lands its result on vx.r at t + L with its flags; the groups that are off keep the
latch's content unless Z, and the occupancy is that of R72. All VX rows and their short forms. Every vp operation, in every form, with a legal
control word: its result lands on vp.r at t + L, and on vp.h where it has a second one. All VP rows and their short forms. Every compact op
completes (R88, R148, R212): it reads vd and vs at t, lands the result of its full operation on the unit's latch and writes it back to vd, both at t
+ L, and writes no operand port. All sixteen compact rows. -/
def Obligations.VectorTriggers : Prop :=
  (∀ (i : Instr) (o : VxOp) (x : Trig) (s : State), Fires i (.vx o) x s → (s.fc.unit .vx).busy s.sc = false →
      let r := vxRun o (vecIn s.fc .vx x)
      let L := match o with
        | .fadd | .fsub | .fmul | .fma | .fms | .fnma | .fmin | .fmax => 4
        | .fdiv | .fsqrt => 12
        | _ => 2
      exec i s = .next (s.took .vx x.b (match o with | .fdiv | .fsqrt => 4 | _ => 1)
        [{ due := s.sc + L, trig := s.sc, tgt := .latch .vx false (BitVec.ofNat 2048 r.r) (BitVec.ofNat 2048 r.keep), fl := r.fl }])) ∧
  (∀ (i : Instr) (o : VpOp) (x : Trig) (s : State), Fires i (.vp o) x s → Ready (.vp o) x s →
      let r := vpRun o (vecIn s.fc .vp x)
      let L := match o with
        | .mand | .mor | .mxor | .mnot | .mpop | .mfirst | .iota => 1
        | .qblk | .dqblk => 4
        | .rsum | .rmax | .rmin => 6
        | .rbsum => 8
        | _ => 3
      exec i s = .next (s.took .vp x.b 1 ({ due := s.sc + L, trig := s.sc
                                            tgt := .latch .vp false (BitVec.ofNat 2048 r.r) (BitVec.ofNat 2048 r.keep), fl := r.fl } ::
        (match r.h with | some h => [{ due := s.sc + L, trig := s.sc, tgt := .latch .vp true (BitVec.ofNat 2048 h) 0 }] | none => [])))) ∧
  (∀ (i : Instr) (o : Fin 16) (vd : BitVec 5) (vs : BitVec 4) (e : Bool) (s : State), i.toMove = some (.compact o vd vs e) →
      let full := (compactMeans o.val).1
      let L := (compactMeans o.val).2.2
      (s.fc.unit full.unit).busy s.sc = false →
      let d : Fin 32 := Fin.ofNat 32 vd.toNat
      let r := vecRun full { a := (s.fc.readV d).toNat, b := (s.fc.readV (Fin.ofNat 32 vs.toNat)).toNat, c := 0, m := (compactMeans o.val).2.1
                             gm := BitVec.allOnes 64, z := false, rm := s.fc.rmode }
      exec i s = .next (s.setFc { s.fc.occupy full.unit s.sc 1 with
        lands := s.fc.lands ++
          [{ due := s.sc + L, trig := s.sc, tgt := .latch full.unit false (BitVec.ofNat 2048 r.r) (BitVec.ofNat 2048 r.keep), fl := r.fl },
           { due := s.sc + L, trig := s.sc, tgt := .vback d (BitVec.ofNat 2048 r.r) full.dst s.fc.cur }] }))

/-- The integer lane operations of vx (R197), lane by lane and without a mask: each lane is the operation's value on the lanes of its operands, at
the width that MOD gives, and no flag is set. The signed saturating lanes of vx (R197): the exact sum or difference, clamped to the signed range of
the lane; of the unsigned ones, clamped to the unsigned range; and IOV exactly where a lane is clamped. and, or, xor and andn on all 2,048 bits (R198).
The shape operations of vp, lane by lane and without a mask (R203, R204): a lane by index, the first lane, the counting lanes, the lanes rotated by
the whole 64-bit amount, those slid with the fill of c, those interleaved and taken apart; and the kept lanes packed together or spread. -/
def Obligations.VectorLanes : Prop :=
  (∀ (o : VxOp) (x : VIn) (n : Nat), x.gm = BitVec.allOnes 64 → n < 2048 / vxWidth x.m →
      ∀ f, intLane o (laneBits (BitVec.ofNat 2048 x.a) (vxWidth x.m) n) (laneBits (BitVec.ofNat 2048 x.b) (vxWidth x.m) n) = some f →
        laneBits (BitVec.ofNat 2048 (vxRun o x).r) (vxWidth x.m) n = f ∧ (vxRun o x).fl = 0 ∧ (vxRun o x).keep = 0) ∧
  (∀ (x : VIn) (n : Nat), x.gm = BitVec.allOnes 64 → n < 2048 / vxWidth x.m →
      let w := vxWidth x.m
      let a := (laneBits (BitVec.ofNat 2048 x.a) w n).toInt
      let b := (laneBits (BitVec.ofNat 2048 x.b) w n).toInt
      (laneBits (BitVec.ofNat 2048 (vxRun .adds x).r) w n).toInt = max (-((2 ^ (w - 1) : Nat) : Int)) (min (((2 ^ (w - 1) : Nat) : Int) - 1) (a + b)) ∧
      (laneBits (BitVec.ofNat 2048 (vxRun .subs x).r) w n).toInt = max (-((2 ^ (w - 1) : Nat) : Int)) (min (((2 ^ (w - 1) : Nat) : Int) - 1) (a - b))) ∧
  (∀ (x : VIn) (n : Nat), x.gm = BitVec.allOnes 64 →
      let w := vpWidth x.m
      let N := 2048 / w
      let a := BitVec.ofNat 2048 x.a
      let b := BitVec.ofNat 2048 x.b
      n < N →
      laneBits (BitVec.ofNat 2048 (vpRun .perm x).r) w n = laneBits a w ((laneBits b w n).toNat % N) ∧
      laneBits (BitVec.ofNat 2048 (vpRun .bcast x).r) w n = laneBits b w 0 ∧
      laneBits (BitVec.ofNat 2048 (vpRun .iota x).r) w n = BitVec.ofNat w (x.b % 2 ^ 64 + n) ∧
      laneBits (BitVec.ofNat 2048 (vpRun .rot x).r) w ((n + x.b % 2 ^ 64) % N) = laneBits a w n) ∧
  (∀ (x : VIn), x.gm = BitVec.allOnes 64 →
      let w := vxWidth x.m
      let a := fun n => laneBits (BitVec.ofNat 2048 x.a) w n
      let b := fun n => laneBits (BitVec.ofNat 2048 x.b) w n
      let lim : Int := (2 ^ (w - 1) : Nat)
      let clamps := fun (o : VxOp) (p : Nat → Prop) => (vxRun o x).fl = fIOV ∧ (∃ n, n < 2048 / w ∧ p n) ∨ (vxRun o x).fl = 0 ∧ ∀ n, n < 2048 / w → ¬p n
      (∀ n, n < 2048 / w → (laneBits (BitVec.ofNat 2048 (vxRun .addsu x).r) w n).toNat = min (2 ^ w - 1) ((a n).toNat + (b n).toNat) ∧
        (laneBits (BitVec.ofNat 2048 (vxRun .subsu x).r) w n).toNat = (a n).toNat - (b n).toNat) ∧
      clamps .adds (fun n => (a n).toInt + (b n).toInt < -lim ∨ lim ≤ (a n).toInt + (b n).toInt) ∧
      clamps .subs (fun n => (a n).toInt - (b n).toInt < -lim ∨ lim ≤ (a n).toInt - (b n).toInt) ∧
      clamps .addsu (fun n => 2 ^ w ≤ (a n).toNat + (b n).toNat) ∧ clamps .subsu (fun n => (a n).toNat < (b n).toNat)) ∧
  (∀ (x : VIn) (o : VxOp) (f : Vec → Vec → Vec), x.gm = BitVec.allOnes 64 → x.a < 2 ^ 2048 → x.b < 2 ^ 2048 →
      (o = .and ∧ f = (fun a b => a &&& b) ∨ o = .or ∧ f = (fun a b => a ||| b) ∨ o = .xor ∧ f = (fun a b => a ^^^ b) ∨ o = .andn ∧ f = (fun a b => a &&& ~~~b)) →
      BitVec.ofNat 2048 (vxRun o x).r = f (BitVec.ofNat 2048 x.a) (BitVec.ofNat 2048 x.b) ∧ (vxRun o x).fl = 0 ∧ (vxRun o x).keep = 0) ∧
  (∀ (x : VIn) (n : Nat), x.gm = BitVec.allOnes 64 →
      let w := vpWidth x.m
      let N := 2048 / w
      let a := fun n => laneBits (BitVec.ofNat 2048 x.a) w n
      let b := fun n => laneBits (BitVec.ofNat 2048 x.b) w n
      let c := fun n => laneBits (BitVec.ofNat 2048 x.c) w n
      let d := min (x.b % 2 ^ 64) N
      let h := x.c % 2
      let out := fun (o : VpOp) i => laneBits (BitVec.ofNat 2048 (vpRun o x).r) w i
      n < N →
      out .slideup n = (if d ≤ n then a (n - d) else c (N - d + n)) ∧
      out .slidedn n = (if n + d < N then a (n + d) else c (n + d - N)) ∧
      (n < N / 2 → out .ilv (2 * n) = a (N / 2 * h + n) ∧ out .ilv (2 * n + 1) = b (N / 2 * h + n)) ∧
      out .dilv n = (if 2 * n + h < N then a (2 * n + h) else b (2 * n + h - N))) ∧
  (∀ (x : VIn) (n : Nat), x.gm = BitVec.allOnes 64 →
      let w := vpWidth x.m
      let N := 2048 / w
      let kept := fun i => (List.range 64).any (fun g => x.b.testBit g && decide (w * i < 32 * (g + 1)) && decide (32 * g < w * (i + 1)))
      let below := fun i => ((List.range i).filter kept).length
      let a := fun n => laneBits (BitVec.ofNat 2048 x.a) w n
      let out := fun (o : VpOp) i => laneBits (BitVec.ofNat 2048 (vpRun o x).r) w i
      n < N →
      (kept n = true → out .compress (below n) = a n ∧ out .expand n = a (below n)) ∧
      (below N ≤ n → out .compress n = 0) ∧ (kept n = false → out .expand n = 0)) ∧
  (∀ (x : VIn) (o : VpOp), x.gm = BitVec.allOnes 64 →
      o ∈ [VpOp.perm, .bcast, .slideup, .slidedn, .iota, .rot, .ilv, .dilv, .compress, .expand] →
      (vpRun o x).fl = 0 ∧ (vpRun o x).keep = 0 ∧ (vpRun o x).h = none)

/-- A mask works by groups of 32 bits (R158, R170): for every vx operation that is no compare, a group that is off is zero in the result, and its
old content is kept unless Z; a group that is on is what the operation without a mask gives. A compare gives one bit for each group (R202): whether
the predicate is true of every lane of the group, zero where the group is off, which keeps its old bit unless Z; an integer compare sets no flag, and
an FP compare NV for a NaN in a lane whose group is on, fceq for a signalling one alone. -/
def Obligations.VxMaskedGroups : Prop :=
  (∀ (o : VxOp) (x : VIn) (g : Nat), g < 64 → (match o with | .fceq | .fclt | .fcle | .ceq | .clt | .cltu => False | _ => True) →
    laneBits (BitVec.ofNat 2048 (vxRun o x).r) 32 g = (if x.gm.getLsbD g then laneBits (BitVec.ofNat 2048 (vxRun o x.unmasked).r) 32 g else 0) ∧
    laneBits (BitVec.ofNat 2048 (vxRun o x).keep) 32 g = (if x.gm.getLsbD g || x.z then 0 else BitVec.allOnes 32)) ∧
  (∀ (o : VxOp) (x : VIn) (w : Nat) (p : Nat → Prop) (nv : Nat → Prop),
    let a := fun w n => laneBits (BitVec.ofNat 2048 x.a) w n
    let b := fun w n => laneBits (BitVec.ofNat 2048 x.b) w n
    let F := vxFmt x.m
    let fa := fun n => F.unpack (a F.width n).toNat
    let fb := fun n => F.unpack (b F.width n).toNat
    let nan := fun n => (fa n).isNan = true ∨ (fb n).isNan = true
    (o = .ceq ∧ w = vxWidth x.m ∧ p = (fun n => a w n = b w n) ∧ nv = (fun _ => False) ∨
      o = .clt ∧ w = vxWidth x.m ∧ p = (fun n => (a w n).toInt < (b w n).toInt) ∧ nv = (fun _ => False) ∨
      o = .cltu ∧ w = vxWidth x.m ∧ p = (fun n => (a w n).toNat < (b w n).toNat) ∧ nv = (fun _ => False) ∨
      o = .fceq ∧ w = F.width ∧ p = (fun n => ¬nan n ∧ fEq (fa n) (fb n) = true) ∧ nv = (fun n => fa n = .nan true ∨ fb n = .nan true) ∨
      o = .fclt ∧ w = F.width ∧ p = (fun n => ¬nan n ∧ fLt (fa n) (fb n) = true) ∧ nv = nan ∨
      o = .fcle ∧ w = F.width ∧ p = (fun n => ¬nan n ∧ (fLt (fa n) (fb n) = true ∨ fEq (fa n) (fb n) = true)) ∧ nv = nan) →
    let meets := fun n g => w * n < 32 * (g + 1) ∧ 32 * g < w * (n + 1)
    (vxRun o x).r < 2 ^ 64 ∧ (vxRun o x).h = none ∧
    (∀ g, g < 64 → ((vxRun o x).r.testBit g = true ↔ x.gm.getLsbD g = true ∧ ∀ n, n < 2048 / w → meets n g → p n) ∧
      ((vxRun o x).keep.testBit g = true ↔ x.gm.getLsbD g = false ∧ x.z = false)) ∧ (vxRun o x).keep < 2 ^ 64 ∧
    ((vxRun o x).fl = fNV ∧ (∃ n g, n < 2048 / w ∧ g < 64 ∧ meets n g ∧ x.gm.getLsbD g = true ∧ nv n) ∨
      (vxRun o x).fl = 0 ∧ ∀ n g, n < 2048 / w → g < 64 → meets n g → x.gm.getLsbD g = true → ¬nv n))

/-- Sums, products, quotients and roots of special values (R93, R98, R99): opposite infinities add to the canonical NaN with NV; zero times infinity
is NaN with NV; a non-zero value over a zero sets DZ, and is an infinity in every format that has one, which e4m3 has not; zero over zero is NaN with
NV; a quiet NaN gives the canonical NaN and no flag; the root of a negative value is NaN with NV. In every format and rounding mode, whatever
exponent the zero is unpacked with. Of finite operands (R97, R99, R199): a sum, a product, a quotient and a fused multiply-add is the exact number
rounded once, and where that exceeds the largest of the format it is the infinity or the largest number that the mode gives, with OF and NX; a root is
rounded once; an exact zero has the sign that its operands give it, and a sum of opposite ones +0, under RDN -0; a quotient and a root that the format
holds is that number, with no flag. The order and equality of finite values are those of
the numbers; fmin and fmax give the smaller and the larger operand, -0 below +0, the other operand beside one NaN, and NV for a signalling NaN; fabs
and fneg change the sign bit alone, and make a NaN canonical (R98, R199, R200, R202). The operations of vx apply these functions lane by lane, in the
format and rounding mode of R196, and OR their flags. It rests on a choice of the model: log entry 42. -/
def Obligations.FloatSpecials : Prop :=
  (∀ (F : FFmt) (m : RMode) (n k : Bool) (p : Nat) (e f : Int), 0 < p →
    fAdd F m (.inf n) (.inf !n) = ⟨F.nanPat, fNV⟩ ∧
    fMul F m (.fin n 0 e) (.inf k) = ⟨F.nanPat, fNV⟩ ∧
    (fDiv F m (.fin n p e) (.fin k 0 f)).fl = fDZ ∧
    (F ≠ .e4m3 → fDiv F m (.fin n p e) (.fin k 0 f) = ⟨F.signPat (n != k) + F.infPat, fDZ⟩) ∧
    fDiv F m (.fin n 0 e) (.fin k 0 f) = ⟨F.nanPat, fNV⟩ ∧
    fAdd F m (.nan false) (.fin n p e) = ⟨F.nanPat, 0⟩ ∧
    fSqrt F m (.fin true p e) = ⟨F.nanPat, fNV⟩) ∧
  (∀ (F : FFmt) (m : RMode) (a b c : Nat) (x y z : Rat), a < 2 ^ F.width → b < 2 ^ F.width → c < 2 ^ F.width →
    F.number a = some x → F.number b = some y → F.number c = some z →
    let u := F.unpack a
    let v := F.unpack b
    let neg := fun (n : Nat) => n.testBit (F.width - 1)
    let signs := neg a != neg b
    (∀ q w, (q = fAdd F m u v ∧ w = x + y ∨ q = fMul F m u v ∧ w = x * y ∨ q = fFma F m u v (F.unpack c) ∧ w = x * y + z ∨
        y ≠ 0 ∧ q = fDiv F m u v ∧ w = x / y) →
      (F.over m w → q = F.overflow m (decide (w < 0))) ∧ (¬F.over m w → q.rounds F m w ∧ q.fl &&& ~~~(fNX ||| fUF) = 0)) ∧
    (x + y = 0 → fAdd F m u v = ⟨F.signPat (if neg a = neg b then neg a else m == .rdn), 0⟩) ∧
    (x * y = 0 → fMul F m u v = ⟨F.signPat signs, 0⟩) ∧ (x = 0 → y ≠ 0 → fDiv F m u v = ⟨F.signPat signs, 0⟩) ∧
    (x * y + z = 0 → fFma F m u v (F.unpack c) = ⟨F.signPat (if signs = neg c then neg c else m == .rdn), 0⟩) ∧
    (x = 0 → fSqrt F m u = ⟨F.signPat (neg a), 0⟩) ∧ (0 < x → (fSqrt F m u).rootOf F m x) ∧
    (∀ d w, d < 2 ^ F.width → F.number d = some w → w ≠ 0 → (y ≠ 0 → x / y = w → fDiv F m u v = ⟨d, 0⟩) ∧ (0 < w → w * w = x → fSqrt F m u = ⟨d, 0⟩)) ∧
    (fEq u v = true ↔ x = y) ∧ (fLt u v = true ↔ x < y) ∧
    (∀ big, (fMinMax F big a b).fl = 0 ∧ ((fMinMax F big a b).val = a ∨ (fMinMax F big a b).val = b) ∧
      F.number (fMinMax F big a b).val = some (if big then max x y else min x y) ∧
      (x = 0 → y = 0 → a ≠ b → (fMinMax F big a b).val = F.signPat (!big)))) ∧
  (∀ (F : FFmt) (a b : Nat), a < 2 ^ F.width → b < 2 ^ F.width →
    let u := F.unpack a
    let v := F.unpack b
    let nv : Flags := if u = .nan true ∨ v = .nan true then fNV else 0
    (∀ big, (u.isNan = true → v.isNan = true → fMinMax F big a b = ⟨F.nanPat, nv⟩) ∧ (u.isNan = true → v.isNan = false → fMinMax F big a b = ⟨b, nv⟩) ∧
      (u.isNan = false → v.isNan = true → fMinMax F big a b = ⟨a, nv⟩)) ∧
    (∀ f : Bool → Bool, fSignOp F f a = if u.isNan then ⟨F.nanPat, if u = .nan true then fNV else 0⟩
      else ⟨(if f (a.testBit (F.width - 1)) then 2 ^ (F.width - 1) else 0) + a % 2 ^ (F.width - 1), 0⟩)) ∧
  (∀ (o : VxOp) (x : VIn) (f : Nat → Nat → Nat → FR), x.gm = BitVec.allOnes 64 →
    let F := vxFmt x.m
    let m : RMode := if x.m.getLsbD 2 then .rne else x.rm
    let u := F.unpack
    (o = .fadd ∧ f = (fun a b _ => fAdd F m (u a) (u b)) ∨ o = .fsub ∧ f = (fun a b _ => fAdd F m (u a) (u b).negated) ∨
      o = .fmul ∧ f = (fun a b _ => fMul F m (u a) (u b)) ∨ o = .fma ∧ f = (fun a b c => fFma F m (u a) (u b) (u c)) ∨
      o = .fms ∧ f = (fun a b c => fFma F m (u a) (u b) (u c).negated) ∨ o = .fnma ∧ f = (fun a b c => fFma F m (u a).negated (u b) (u c)) ∨
      o = .fmin ∧ f = (fun a b _ => fMinMax F false a b) ∨ o = .fmax ∧ f = (fun a b _ => fMinMax F true a b) ∨
      o = .fabs ∧ f = (fun _ b _ => fSignOp F (fun _ => false) b) ∨ o = .fneg ∧ f = (fun _ b _ => fSignOp F (fun s => !s) b) ∨
      o = .fdiv ∧ f = (fun a b _ => fDiv F m (u a) (u b)) ∨ o = .fsqrt ∧ f = (fun _ b _ => fSqrt F m (u b))) →
    let w := F.width
    let r := fun n => f (laneBits (BitVec.ofNat 2048 x.a) w n).toNat (laneBits (BitVec.ofNat 2048 x.b) w n).toNat (laneBits (BitVec.ofNat 2048 x.c) w n).toNat
    (∀ n, n < 2048 / w → laneBits (BitVec.ofNat 2048 (vxRun o x).r) w n = BitVec.ofNat w (r n).val) ∧ (vxRun o x).keep = 0 ∧
    ∀ k, k < 7 → ((vxRun o x).fl.getLsbD k = true ↔ ∃ n, n < 2048 / w ∧ (r n).fl.getLsbD k = true))

/-- The values of vp's conversions, blocks, reductions and mask operations, without a mask. cvt converts each lane into its part of the result and
leaves the rest zero (R205); cvt.ef rounds the sum of a lane and its residue and lands what is left as the new residue (R106, R206). qblk and dqblk
take 64 FP32 lanes to two blocks and back, a finite value that the block's scale reaches to the nearest code (R104, R105, R207, R208). rsum, rmax and
rmin combine the lanes by the tree of R110, an INT32 sum modulo 2^32 (R209); rbsum forms the XS128 state, whose sum is that of the contributions in
units of 2^(E - 100) (R107 to R110, R210). The mask operations act on 64 bits (R211). The flags are those of the lanes together. It rests on choices of
the model: log entries 21 (the rounding of rbsum and its flags), 42. -/
def Obligations.VpValues : Prop :=
  ∀ x : VIn, x.gm = BitVec.allOnes 64 →
    let a := BitVec.ofNat 2048 x.a
    let b := BitVec.ofNat 2048 x.b
    let c := BitVec.ofNat 2048 x.c
    let m : RMode := if x.m.getLsbD 2 then .rne else x.rm
    let sat := !x.m.getLsbD 1
    let v := fun (o : VpOp) => BitVec.ofNat 2048 (vpRun o x).r
    let flags := fun (o : VpOp) (n : Nat) (f : Nat → Flags) => ∀ k, k < 7 → ((vpRun o x).fl.getLsbD k = true ↔ ∃ j, j < n ∧ (f j).getLsbD k = true)
    (∀ S D, Fmt.ofCode (x.a % 16) = some S → Fmt.ofCode (x.a / 16 % 16) = some D → S ≠ .b4 → D ≠ .b4 →
      x.a / 256 % 8 < max S.width D.width / min S.width D.width →
      let n := 2048 / max S.width D.width
      let part := x.a / 256 % 8 * n
      let src := fun j => if D.width ≤ S.width then j else part + j
      let dst := fun j => if D.width ≤ S.width then part + j else j
      let q := fun j => cvt (laneBits b S.width (src j)).toNat S D m sat
      (∀ j, j < n → laneBits (v .cvt) D.width (dst j) = BitVec.ofNat D.width (q j).val) ∧
      (∀ o, o < 2048 / D.width → (∀ j, j < n → dst j ≠ o) → laneBits (v .cvt) D.width o = 0) ∧ flags .cvt n (fun j => (q j).fl) ∧
      (vpRun .cvt x).keep = 0 ∧ (vpRun .cvt x).h = none) ∧
    (∀ F, x.a % 16 = 0 → x.a / 256 % 8 = 0 → (F, x.a / 16 % 16) ∈ [(FFmt.fp16, 1), (.bf16, 2), (.e4m3, 3), (.e5m2, 4)] →
      let t := fun j => fAdd .fp32 .rne (FFmt.fp32.unpack (laneBits b 32 j).toNat) (FFmt.fp32.unpack (laneBits c 32 j).toNat)
      let y := fun j => cvtFF .fp32 F .rne sat (t j).val
      let lost := fun j => (FFmt.fp32.number (t j).val).isNone || (F.unpack (y j).val).isNan
      let d := fun j => fAdd .fp32 .rne (FFmt.fp32.unpack (t j).val) (F.unpack (y j).val).negated
      ∃ h, (vpRun .cvtEf x).h = some h ∧ (∀ j, j < 64 → laneBits (v .cvtEf) F.width j = BitVec.ofNat F.width (y j).val ∧
          laneBits (BitVec.ofNat 2048 h) 32 j = if lost j then 0 else BitVec.ofNat 32 (d j).val) ∧
        (vpRun .cvtEf x).r < 2 ^ (64 * F.width) ∧ flags .cvtEf 64 (fun j => (t j).fl ||| (y j).fl ||| if lost j then 0 else (d j).fl)) ∧
    (let xs := fun j => (List.range 32).map (fun i => (laneBits b 32 (32 * j + i)).toNat)
     let q := fun j => if x.m = 4 then qblkAuto (xs j) else qblk (x.m.toNat % 4) (xs j)
     (∀ j i, j < 2 → i < 32 → laneBits (v .qblk) 4 (32 * j + i) = BitVec.ofNat 4 ((q j).codes.getD i 0)) ∧ (vpRun .qblk x).r < 2 ^ 256 ∧
       (vpRun .qblk x).h = some ((q 0).scale + 256 * (q 1).scale) ∧ (vpRun .qblk x).fl = (q 0).fl ||| (q 1).fl ∧
     ∀ i, i < 64 → laneBits (v .dqblk) 32 i = BitVec.ofNat 32 (fRound .fp32 .rne (b4Value (laneBits a 8 (i / 32)).toNat (laneBits b 4 i).toNat)).val ∧
       (vpRun .dqblk x).fl = 0) ∧
    (∀ (T i : Nat) (xs : List Nat) (w : Rat), T < 4 → xs.length = 32 → i < 32 → (∀ y ∈ xs, y < 2 ^ 32) → FFmt.fp32.number (xs.getD i 0) = some w →
      (qblk T xs).scale % 64 < 63 → ∃ u, (b4Value (qblk T xs).scale ((qblk T xs).codes.getD i 0)).number = some u ∧
        ∀ k z, k < 16 → (b4Value (qblk T xs).scale k).number = some z → ratAbs (u - w) ≤ ratAbs (z - w)) ∧
    (let w := if x.m.toNat % 4 = 1 ∨ x.m.toNat % 4 = 2 then 16 else 32
     let l := fun j => (laneBits b w j).toNat
     let F := fun (F : FFmt) =>
       let tree := fun (f : Nat → Nat → FR) => pairTree f (Nat.log2 (2048 / w)) ((List.range (2048 / w)).map l)
       let out := fun (o : VpOp) f => (vpRun o x).r = (tree f).1.headD 0 ∧ (vpRun o x).fl = (tree f).2
       out .rsum (fun p q => fAdd F m (F.unpack p) (F.unpack q)) ∧ out .rmax (fMinMax F true) ∧ out .rmin (fMinMax F false)
     (x.m.toNat % 4 = 0 → F .fp32) ∧ (x.m.toNat % 4 = 1 → F .fp16) ∧ (x.m.toNat % 4 = 2 → F .bf16) ∧
     (x.m.toNat % 4 = 3 → (vpRun .rsum x).r = ((List.range 64).map l).sum % 2 ^ 32 ∧
       (∀ o, o = VpOp.rmax ∨ o = .rmin → (∃ j, j < 64 ∧ (vpRun o x).r = l j) ∧ ∀ j, j < 64 →
         if o = .rmax then (laneBits b 32 j).toInt ≤ (BitVec.ofNat 32 (vpRun o x).r).toInt else (BitVec.ofNat 32 (vpRun o x).r).toInt ≤ (laneBits b 32 j).toInt) ∧
       ∀ o, o = VpOp.rsum ∨ o = .rmax ∨ o = .rmin → (vpRun o x).fl = 0)) ∧
    (let st := xsState ((List.range 64).map (fun j => (laneBits b 32 j).toNat))
     (vpRun .rbsum x).r = st.out.val ∧ (vpRun .rbsum x).fl = st.out.fl ∧ (vpRun .rbsum x).h = some st.pack ∧
     ∀ (E : Int) (n : Nat → Bool) (k : Nat → Nat) (e : Nat → Int), (∀ j, j < 64 → FFmt.fp32.unpack (laneBits b 32 j).toNat = .fin (n j) (k j) (e j)) →
       (∀ j, j < 64 → k j ≠ 0 → e j + Nat.log2 (k j) ≤ E) → (∃ j, j < 64 ∧ k j ≠ 0 ∧ e j + Nat.log2 (k j) = E) →
       let S := ((List.range 64).map (fun j => signedMul (n j) (roundTo .rne (n j) (k j) (e j + 100 - E) 0).1)).sum
       st.s = BitVec.ofInt 128 S ∧ st.e = some E ∧ st.out = rndInt .fp32 .rne S (E - 100) false) ∧
    (let s := BitVec.ofNat 64 x.b
     (vpRun .mand x).r = (BitVec.ofNat 64 x.a &&& s).toNat ∧ (vpRun .mor x).r = (BitVec.ofNat 64 x.a ||| s).toNat ∧
     (vpRun .mxor x).r = (BitVec.ofNat 64 x.a ^^^ s).toNat ∧ (vpRun .mnot x).r = (~~~s).toNat ∧
     (vpRun .mpop x).r = ((List.range 64).filter (fun i => s.getLsbD i)).length ∧
     (vpRun .mfirst x).r ≤ 64 ∧ (∀ i, i < (vpRun .mfirst x).r → s.getLsbD i = false) ∧ ((vpRun .mfirst x).r < 64 → s.getLsbD (vpRun .mfirst x).r = true) ∧
     ∀ o ∈ [VpOp.mand, .mor, .mxor, .mnot, .mpop, .mfirst], (vpRun o x).fl = 0 ∧ (vpRun o x).keep = 0 ∧ (vpRun o x).h = none)

/-! ## The matrix engine (spec/09_matrix_ops.md) -/

/-- mx.mma and mx.mmas, in every form, when the checks of R225 find nothing (descriptors, tile, bounds, banks, the tile's targeting): an unfinished
multiply of S steps is left, which finishes at t + S + 7 and joins the open finishes; a row that a tile store writes in the bank of its first side fetch
sets no flag (R118, R226, R232). mx.load and mx.store, in every form, when the checks of R232
find nothing: an unfinished move of ROWS rows, or of two slots a row for a store of rows over 256 bytes, which occupies mx for its slots and
finishes at t + ROWS + 3, or t + m * ROWS + 1. The first check that fails, in the order of the rules, raises its fault and has no other effect than
the port's value: DESCRIPTOR with its number, TILE_CONFIG, BOUNDS, BANK_CONFLICT of a multiply, TILE_BUSY (R84, R217, R225, R232, R300, R315). It rests
on choices of the model: log entries 18, 22, 24 (the words of these faults), 51 (a misaligned BASE is check 4). -/
def Obligations.MxOperations : Prop :=
  (∀ (i : Instr) (sparse : Bool) (x : Trig) (s : State), Fires i (.mx (if sparse then .mmas else .mma)) x s →
      s.fc.opBusy (.mx (if sparse then .mmas else .mma)) s.sc = false →
      let ctl := x.b % 2 ^ 64
      let a := s.fc.sp.td.get (Fin.ofNat 32 (ctl % 32))
      let b := s.fc.sp.td.get (Fin.ofNat 32 (ctl / 32 % 32))
      let o : Op := .mx (if sparse then .mmas else .mma)
      let trap := fun code check idx => exec i s = .next (s.trapped o x (s.mxInfo code ctl (ctl / 1024 % 16) check idx))
      (∀ k j, mxDescCheck sparse a b (ctl % 32) (ctl / 32 % 32) = some (k, j) → trap 0x25 k j) ∧
      ∀ p, mxPair (tdFmt a) (tdFmt b) = some p →
        let m : MxMul := { trig := s.sc, baddr := s.fc.cur, sparse := sparse, ctl := BitVec.ofNat 64 ctl, a := a, b := b, steps := tdCols a / p.r }
        mxDescCheck sparse a b (ctl % 32) (ctl / 32 % 32) = none →
        (m.tileBad (s.fc.acfg m.tile) = true → trap 0x24 0 0) ∧
        (m.tileBad (s.fc.acfg m.tile) = false → m.inBounds = false → trap 0x21 0 0) ∧
        (m.tileBad (s.fc.acfg m.tile) = false → m.inBounds = true → m.bankClash = true → trap 0x11 0 0) ∧
        (m.tileBad (s.fc.acfg m.tile) = false → m.inBounds = true → m.bankClash = false → (s.fc.mx.targeted m.tile s.sc).isSome = true → trap 0x13 0 0) ∧
        (m.tileBad (s.fc.acfg m.tile) = false → m.inBounds = true → m.bankClash = false → s.fc.mx.targeted m.tile s.sc = none →
        exec i s = .next ((s.took .mx x.b 1 []).modFc (fun c =>
          { c with mx := { c.mx with
              muls := c.mx.muls ++ [m], opens := c.mx.opens ++ [s.sc + tdCols a / p.r + 7]
              rowFl := c.mx.rowFl.filter (fun q => some q.1 != m.sideBank s.sc) } })))) ∧
  (∀ (i : Instr) (load : Bool) (x : Trig) (s : State), Fires i (.mx (if load then .load else .store)) x s → (s.fc.unit .mx).busy s.sc = false →
      let ctl := x.b % 2 ^ 64
      let n := ctl / 1024 % 16
      let td := s.fc.sp.td.get (Fin.ofNat 32 (ctl % 32))
      let rows := acfgRows (s.fc.acfg n)
      let cols := acfgCols (s.fc.acfg n)
      let len := cols * tdElem td
      let m := if !load && decide (256 < len) then 2 else 1
      let f := if load then s.sc + rows + 3 else s.sc + m * rows + 1
      let trap := fun code check => exec i s = .next (s.trapped (.mx (if load then .load else .store)) x (s.mxInfo code ctl n check (if check = 0 then 0 else ctl % 32)))
      let shape := tdCheck td false false (tdElem td) = none ∧ tdSpace td = 0 ∧ mxMoveFmtBad load (tdFmt td) (acfgType (s.fc.acfg n)) = false ∧
        tdRows td = rows ∧ tdCols td = cols
      let inside := ∀ r, r < rows → scrIn (tdBase td + r * tdStride td) len = true
      (∀ k, tdCheck td false false (tdElem td) = some k → trap 0x25 k) ∧
      (tdCheck td false false (tdElem td) = none →
        (tdSpace td ≠ 0 → trap 0x25 6) ∧ (tdSpace td = 0 → mxMoveFmtBad load (tdFmt td) (acfgType (s.fc.acfg n)) = true → trap 0x25 7) ∧
        (tdSpace td = 0 → mxMoveFmtBad load (tdFmt td) (acfgType (s.fc.acfg n)) = false → ¬(tdRows td = rows ∧ tdCols td = cols) → trap 0x25 8)) ∧
      (shape → acfgOn (s.fc.acfg n) = false → trap 0x24 0) ∧
      (shape → acfgOn (s.fc.acfg n) = true → ¬inside → trap 0x21 0) ∧
      (shape → acfgOn (s.fc.acfg n) = true → inside → (s.fc.mx.targeted n s.sc).isSome = true → trap 0x13 0) ∧
      (shape → acfgOn (s.fc.acfg n) = true → inside → s.fc.mx.targeted n s.sc = none →
      let mv : MxMove := { trig := s.sc, baddr := s.fc.cur, load := load, ctl := BitVec.ofNat 64 ctl, td := td, tile := n, rows := rows, cols := cols, m := m,
                           rm := s.fc.rmode }
      mv.finish = f ∧
        exec i s = .next ((s.took .mx x.b (m * rows) []).modFc (fun c =>
          { c with mx := { c.mx with moves := c.mx.moves ++ [mv], opens := c.mx.opens ++ [f] } }))))

/-- mx.zero, rrow, rcol, wrow and wcol, in every form, on a configured tile that no operation targets and with an index inside it (R231): a read
lands a row or column of the tile on mx.r at t + 3, in lanes of 32 bits; a write lands lanes of a v register, or zeros, in the tile at t + 2. On a
tile that is not configured, or with an index outside it, each raises TILE_CONFIG, and on one that is targeted TILE_BUSY (R217, R231, R300).
mx.commit and mx.wait, in every form (R233): a commit closes the open finishes into a group, whose completion stitch becomes the latest of them and
of its own; a wait of a group that is complete does nothing, and one before that raises SLIP. mx.status lands the fields of R234 on mx.r at t + 3. A step
of a multiply whose slices and side fetches are all there gives every element of the tile the sum of its old value, or of zero where ACC = 0 and no
step came before, and the exact products that the step adds, over the stored positions that the metadata names in a sparse one: modulo 2^32 for
integers, and rounded once to FP32 with its flags for the others; the tile is then dirty, and no other tile changes. A step that lacks one does nothing
(R218 to R220, R223, R227 to R230). It rests on choices of the model: that a wait which raises SLIP has written its port (log entry 18), and which steps
a voided slice leaves without effect (log entry 22). -/
def Obligations.MxTilesAndGroups : Prop :=
  (∀ (i : Instr) (o : MxOp) (x : Trig) (s : State), Fires i (.mx o) x s → (s.fc.unit .mx).busy s.sc = false →
      let c := s.fc
      let n := x.b % 16
      let k := x.b / 16 % 64
      let rows := acfgRows (c.acfg n)
      let cols := acfgCols (c.acfg n)
      let v := c.readV (Fin.ofNat 32 (x.b / 1024 % 32))
      let badIx := (match o with | .rrow | .wrow => rows ≤ k | .rcol | .wcol => cols ≤ k | _ => False)
      let trap := fun code => exec i s = .next (s.trapped (.mx o) x (s.mxInfo code (x.b % 2 ^ 64) n 0 0))
      (o ∈ [MxOp.zero, .rrow, .rcol, .wrow, .wcol] →
        (acfgOn (c.acfg n) = false ∨ badIx → trap 0x24) ∧ (acfgOn (c.acfg n) = true → ¬badIx → (c.mx.targeted n s.sc).isSome = true → trap 0x13)) ∧
      (acfgOn (c.acfg n) = true → c.mx.targeted n s.sc = none →
      match o with
      | .zero => exec i s = .next (s.took .mx x.b 1 [tileLand s.sc n 2048
          ((List.range rows).flatMap (fun r => (List.range cols).map (fun j => (64 * r + j, 0))))])
      | .rrow => k < rows → exec i s = .next (s.took .mx x.b 1
          [latchVec .mx s.sc 3 (fun j => if j < cols then c.tileAt n k j else 0)])
      | .rcol => k < cols → exec i s = .next (s.took .mx x.b 1
          [latchVec .mx s.sc 3 (fun j => if j < rows then c.tileAt n j k else 0)])
      | .wrow => k < rows → exec i s = .next (s.took .mx x.b 1 [tileLand s.sc n (16 * k) ((List.range cols).map (fun j => (64 * k + j, laneBits v 32 j)))])
      | .wcol => k < cols → exec i s = .next (s.took .mx x.b 1 [tileLand s.sc n (16 * k + 1024) ((List.range rows).map (fun j => (64 * j + k, laneBits v 32 j)))])
      | _ => True)) ∧
  ((∀ (i : Instr) (x : Trig) (s : State), Fires i (.mx .commit) x s → (s.fc.unit .mx).busy s.sc = false →
      ∃ t, exec i s = .next t ∧ t = (s.took .mx x.b 1 []).modFc (fun c => { c with mx := { c.mx with opens := [], grp := t.fc.mx.grp } }) ∧
        (∀ g : Fin 8, t.fc.mx.grp.get g = if g.val = x.b % 8 then s.fc.mx.opens.foldl max (s.fc.mx.grp.get g) else s.fc.mx.grp.get g)) ∧
    (∀ (i : Instr) (x : Trig) (s : State), Fires i (.mx .wait) x s → (s.fc.unit .mx).busy s.sc = false →
      let done := s.fc.mx.grp.get (Fin.ofNat 8 (x.b % 8))
      exec i s = .next (if done ≤ s.sc then s.took .mx x.b 1 []
        else (s.modFc (fun c => c.writePort .mx 1 x.b)).raiseHere
          { code := 0x10, dst := Op.dst (.mx .wait), baddr := s.fc.cur, w5 := 0, w6 := done, w7 := s.sc })) ∧
    (∀ (i : Instr) (x : Trig) (s : State), Fires i (.mx .status) x s → (s.fc.unit .mx).busy s.sc = false →
      ∃ v : W64, exec i s = .next (s.took .mx x.b 1 [lands64 .mx false s.sc 3 v 0]) ∧
        (∀ n, n < 16 → v.getLsbD (48 + n) = (s.fc.acfg n).getLsbD 63 ∧ v.getLsbD (32 + n) = (s.fc.acfg n).getLsbD 62 ∧
          (v.getLsbD n = true ↔ (∃ m ∈ s.fc.mx.muls, m.tile = n ∧ m.trig ≤ s.sc ∧ s.sc < m.trig + m.steps + 7) ∨
            ∃ m ∈ s.fc.mx.moves, m.tile = n ∧ m.trig ≤ s.sc ∧ s.sc < m.finish)) ∧
        (∀ g : Fin 8, v.getLsbD (16 + g.val) = decide (s.fc.mx.grp.get g ≤ s.sc)) ∧
        (v.getLsbD 24 = true ↔ ∃ m ∈ s.fc.mx.muls, m.trig ≤ s.sc ∧ s.sc < m.trig + m.steps) ∧ ∀ n, 25 ≤ n → n < 32 → v.getLsbD n = false)) ∧
  (∀ (c : Core) (m : MxMul) (k : Nat) (p : MxPair), m.pair = some p → 1 ≤ k → tdRows m.a ≤ 64 → tdRows m.b ≤ 64 →
      let t := c.mulLand m k
      let r := p.r
      let w := 16 / r
      let cut := fun (l : List Byte) (n lane q : Nat) => ofBytes (l.drop (n * lane)) / 2 ^ (w * q) % 2 ^ w
      let byte := fun (key lane : Nat) => ((mgetD m.sides key []).getD lane 0).toNat
      let A : Nat → Nat × Nat → FV := fun i e =>
        let x := cut (mgetD m.slices e.1 ([], [])).1 2 i e.2
        match p with | .f16 F | .f8 F _ => F.unpack x | .i8 I _ => .fin (I.value x < 0) (I.value x).natAbs 0 | .b4 => b4Value (byte (4096 + (k - 1) / 8) i) x
      let B : Nat → Nat × Nat → FV := fun j e =>
        let x := cut (mgetD m.slices e.1 ([], [])).2 (if m.sparse then 4 else 2) j e.2
        match p with
        | .f16 F | .f8 _ F => F.unpack x
        | .i8 _ I => .fin (I.value x < 0) (I.value x).natAbs 0
        | .b4 => b4Value (byte (8192 + (k - 1) / (if m.sparse then 4 else 8)) j) x
      let pos := fun i G => let len := if r = 1 then 128 else 256
        ofBytes ((mgetD m.sides (32 * G / len) []).drop (32 * G % len)) / 2 ^ (4 * i) % 16
      let lo := fun i G => pos i G % 4
      let hi := fun i G => pos i G / 4
      let at' := fun i : Nat =>
        if m.sparse = false then (List.range r).map (fun q => ((k, q), (k, q)))
        else if r = 1 then (if k % 2 = 0 then [((k - 1, 0), (k - 1 + lo i (k / 2 - 1) / 2, lo i (k / 2 - 1) % 2)),
          ((k, 0), (k - 1 + hi i (k / 2 - 1) / 2, hi i (k / 2 - 1) % 2))] else [])
        else if r = 2 then [((k, 0), (k, lo i (k - 1))), ((k, 1), (k, hi i (k - 1)))]
        else [((k, 0), (k, lo i (2 * k - 2))), ((k, 1), (k, hi i (2 * k - 2))), ((k, 2), (k, 4 + lo i (2 * k - 1))), ((k, 3), (k, 4 + hi i (2 * k - 1)))]
      let terms := fun i j => (at' i).map (fun e => (A i e.1, B j e.2))
      let old := fun i j => if m.acc || (List.range k).any (fun q => decide (1 ≤ q) && m.ready q) then c.tileAt m.tile i j else 0
      let sum := fun i j => ((terms i j).map (fun q => (fProd q.1 q.2).1)).foldl ExSum.add (ExSum.zero.add (FFmt.fp32.unpack (old i j).toNat))
      let none' := m.sparse = true ∧ r = 1 ∧ k % 2 = 1
      (m.ready k = false → t = c) ∧
      (m.ready k = true →
        t = { c with tiles := t.tiles, regP := t.regP, sp := { c.sp with vstat := t.sp.vstat, acfg := t.sp.acfg } } ∧
        (∀ n : Fin 16, t.sp.acfg.get n = if n.val = m.tile then c.sp.acfg.get n ||| 0x4000000000000000 else c.sp.acfg.get n) ∧
        (∀ n i j, i < 64 → j < 64 → (n ≠ m.tile ∨ tdRows m.a ≤ i ∨ tdRows m.b ≤ j) → t.tileAt n i j = c.tileAt n i j) ∧
        (∀ i j, i < tdRows m.a → j < tdRows m.b →
          (none' → t.tileAt m.tile i j = old i j) ∧
          (∀ I J, p = .i8 I J → t.tileAt m.tile i j = old i j + BitVec.ofInt 32 ((terms i j).map (fun q => match q with
            | (.fin n x _, .fin o y _) => signedMul n x * signedMul o y | _ => 0)).sum) ∧
          (¬none' → (∀ I J, p ≠ .i8 I J) → t.tileAt m.tile i j = BitVec.ofNat 32 (sum i j).round.val)) ∧
        ∀ b, b < 7 → (t.sp.vstat.getLsbD b = true ↔ c.sp.vstat.getLsbD b = true ∨
          ¬none' ∧ (∀ I J, p ≠ .i8 I J) ∧ ∃ i j, i < tdRows m.a ∧ j < tdRows m.b ∧ (sum i j).round.fl.getLsbD b = true)))

/-! ## Transfers (spec/10_transfer_sync_ops.md) -/

/-- xf.getn and xf.putn, in every form, of a non-empty near transfer that passes the checks of R244: the engine takes it, with its slots from t + 36
+ 24 d and the landings of a get from t + 40 + 48 d, d the distance of the bridge (R48, R241), and its finish joins the open ones. A length of 0
does nothing. xf.send and xf.recv, in every form, of a non-empty transfer on a route that passes the checks of R240 and R243: the engine takes it;
the beats of a send land at the other end from t + 4 + 2h + 24d + f Lfab, and a recv expects them from t + 2 (R48, R241); one of length 0 makes the
checks of its route and does no more. A check that fails raises its fault and has no other effect than the port's value: BOUNDS, then ALIGN, then
PROTECTION of a near transfer and ROUTE_MISMATCH of one on a route. It rests on choices of the model: log entries 18, 23, 30 (a recv from another
package). -/
def Obligations.NearAndRouteTransfers : Prop :=
  (∀ (i : Instr) (put : Bool) (x : Trig) (s : State), Fires i (.xf (if put then .putn else .getn)) x s → (s.fc.unit .xf).busy s.sc = false →
      let y := mkXfer (if put then .putn else .getn) x.m (s.modFc (fun c => c.writePort .xf 1 x.b))
      let d := nearDist s.focus.core (s.fc.o0 .xf)
      let n := ceilDiv (x.b % 2 ^ 24) 6144
      let trap := fun f => exec i s = .next (s.trapped (.xf (if put then .putn else .getn)) x (xfInfo f))
      (x.b % 2 ^ 24 ≠ 0 → ∀ f, xferAddrCheck true false y = some f → trap f ∧
        f.1 = if ∃ j, j < y.beats ∧ (scrIn (y.scrAt j) (y.blen j) = false ∨ nearOne (y.rem + y.beat * j) (y.blen j) = false) then 0x21 else 0x20) ∧
      (x.b % 2 ^ 24 ≠ 0 → xferAddrCheck true false y = none → ∀ f, xferNearProt s.fr.d y = some f → trap f ∧ f.1 = 0x22) ∧
      (x.b % 2 ^ 24 = 0 → exec i s = .next (s.took .xf x.b 1 [])) ∧
      (x.b % 2 ^ 24 ≠ 0 → xferAddrCheck true false y = none → xferNearProt s.fr.d y = none →
        y.trig = s.sc ∧ y.len = x.b % 2 ^ 24 ∧ y.rem = s.fc.o0 .xf ∧ y.scr = s.fc.o2 .xf ∧ y.slot0 = s.sc + 36 + 24 * d ∧ y.land0 = s.sc + 40 + 48 * d ∧
        y.finish = (if put then s.sc + 36 + 24 * d + n - 1 else s.sc + 40 + 48 * d + n - 1) ∧
        exec i s = .next ((s.took .xf x.b 1 []).modFc (fun c => { c with xf := { c.xf with
          xfers := c.xf.xfers ++ [y], opens := c.xf.opens ++ [y.finish], last := max c.xf.last y.finish } })))) ∧
  (∀ (i : Instr) (recv : Bool) (x : Trig) (s : State), Fires i (.xf (if recv then .recv else .send)) x s → (s.fc.unit .xf).busy s.sc = false →
      let s1 := s.modFc (fun c => c.writePort .xf 1 x.b)
      let y := mkXfer (if recv then .recv else .send) x.m s1
      let trap := fun f => exec i s = .next (s.trapped (.xf (if recv then .recv else .send)) x (xfInfo f))
      let matched := if recv then recvCheck s1 y else sendCheck s1 y
      (x.b % 2 ^ 24 ≠ 0 → ∀ f, xferAddrCheck false false y = some f → trap f ∧
        f.1 = if ∃ j, j < y.beats ∧ scrIn (y.scrAt j) (y.blen j) = false then 0x21 else 0x20) ∧
      (x.b % 2 ^ 24 = 0 ∨ xferAddrCheck false false y = none → ∀ f, matched = some f → trap f ∧ f.1 = 0x12) ∧
      (x.b % 2 ^ 24 = 0 → matched = none → exec i s = .next (s.took .xf x.b 1 [])) ∧
      (x.b % 2 ^ 24 ≠ 0 → xferAddrCheck false false y = none → matched = none →
      ∃ z : Xfer, z.kind = (if recv then .recv else .send) ∧ z.trig = s.sc ∧ z.len = x.b % 2 ^ 24 ∧ z.scr = s.fc.o2 .xf ∧ z.route = x.b / 2 ^ 24 % 2 ^ 10 ∧
        (∀ e, mget s.fr.routes z.route = some e → z.land0 = if recv then s.sc + 2 else s.sc + 4 + 2 * e.h + 24 * e.d + s.fr.d.lfab * e.f) ∧
        exec i s = .next ((s.took .xf x.b 1 []).modFc (fun c => { c with xf := { c.xf with
          xfers := c.xf.xfers ++ [z], opens := c.xf.opens ++ [z.finish], last := max c.xf.last z.finish } }))))

/-- xf.getf and xf.putf, in every form (R48, R126, R241, R244, R260, R322, R323): a length of 0 does nothing. A transfer that passes the checks of
R244 is taken by the engine as the get or put that it is, with reads from t + 360 and landings from t + 720, or effects from t + 600, each later by
2 L in band 3; a put inside a containment domain takes its place in the journal; and where the core's cache does not hold a page of it, it gives
XLATE and a request for the walk of each frame, and nothing else of the machine changes. xf.gathf and xf.scatf, in every form, when the checks of
R246 find nothing: the engine takes a gather or scatter of the packed block, whose rows follow from the index list when that is read; a scatter
inside a domain takes its place in the journal; a block of no bytes does nothing. A check that fails raises its fault and has no other effect than the
port's value: DESCRIPTOR of a gather or scatter, BOUNDS, then ALIGN, then PROTECTION of a page that may not be written or of a journal that would
overflow. It rests on choices of the model: log entries 18, 23, 49. -/
def Obligations.FarAndGatherTransfers : Prop :=
  let taken := fun (s : State) (x : Trig) (z : Xfer) =>
    let t := (s.took .xf x.b 1 []).modFc (fun c => { c with xf := { c.xf with
      xfers := c.xf.xfers ++ [z], opens := c.xf.opens ++ [z.finish], last := max c.xf.last z.finish } })
    if z.jrn then t.modFr (fun r => { r with journal := r.journal ++ [{
      trig := s.sc, core := r.d.relOf s.focus.core, lvl := r.clk.cdlev - 1, pos := r.jUsed, va := z.rem, eff := z.effAt 0, len := z.len }] }) else t
  (∀ (i : Instr) (put : Bool) (x : Trig) (s : State), Fires i (.xf (if put then .putf else .getf)) x s → (s.fc.unit .xf).busy s.sc = false →
      let s1 := s.wrote .xf x.b
      let y := mkXfer (if put then .putf else .getf) x.m s1
      let look := s1.fc.lookSpans [(y.rem, y.len)]
      let z := { y with leaves := look.1, missed := look.2.map (fun v => (v / 2 ^ 16, s.sc)), jrn := put && decide (0 < s.fr.clk.cdlev) }
      let trap := fun f => exec i s = .next (s.trapped (.xf (if put then .putf else .getf)) x (xfInfo f))
      (x.b % 2 ^ 24 ≠ 0 → ∀ f, xferAddrCheck false true y = some f → trap f ∧
        f.1 = if (∃ j, j < y.beats ∧ scrIn (y.scrAt j) (y.blen j) = false) ∨ 2 ^ 52 < y.rem + y.len then 0x21 else 0x20) ∧
      (x.b % 2 ^ 24 ≠ 0 → xferAddrCheck false true y = none → put = true →
        ((∃ p ∈ look.1, leafW p.2 = false) → ∃ p ∈ look.1, leafW p.2 = false ∧ trap (0x22, max y.rem (p.1 * 2 ^ 16), 2, 0)) ∧
        ((∀ p ∈ look.1, leafW p.2 = true) → z.jrn = true → s.fr.d.jcap < s.fr.jUsed + z.len + 32 → trap (0x22, y.rem, 3, 0))) ∧
      (x.b % 2 ^ 24 = 0 → exec i s = .next (s.took .xf x.b 1 [])) ∧
      (z.kind = (if put then .putf else .getf) ∧ z.trig = s.sc ∧ z.len = x.b % 2 ^ 24 ∧ z.rem = s.fc.o0 .xf ∧ z.scr = s.fc.o2 .xf ∧ z.beat = 2048 ∧
        z.slot0 = (if put then s.sc + 600 + s.fr.d.farAdd else s.sc + 360 + s.fr.d.farAdd) ∧ (put = false → z.land0 = s.sc + 720 + s.fr.d.farAdd)) ∧
      (x.b % 2 ^ 24 ≠ 0 → xferAddrCheck false true y = none → (put = true → ∀ p ∈ look.1, leafW p.2 = true) →
        (z.jrn = true → s.fr.jUsed + z.len + 32 ≤ s.fr.d.jcap) →
        (look.2 = [] → exec i s = .next (taken s x z)) ∧
        (look.2 ≠ [] → ∃ t, exec i s = .next t ∧
          t = { taken s x z with cores := t.cores, regions := t.regions, inputs := t.inputs, free := t.free } ∧
          t.fc = { (taken s x z).fc with frec := t.fc.frec, ovf := t.fc.ovf } ∧ t.fr = { (taken s x z).fr with seg := t.fr.seg } ∧
          (∃ q ∈ t.fr.seg.causes, q.code = 0x70 ∧ q.core = s.focus.core ∧ q.tag = s.sc) ∧
          ∀ v ∈ look.2, ∃ e ∈ t.inputs, e.2 = .translationWalk s.focus.rg (s.fr.d.relOf s.focus.core) v))) ∧
  (∀ (i : Instr) (scat : Bool) (x : Trig) (s : State), Fires i (.xf (if scat then .scatf else .gathf)) x s → (s.fc.unit .xf).busy s.sc = false →
      let y := mkXfer (if scat then .scatf else .gathf) x.m (s.wrote .xf x.b)
      let z := { y with list := s.fc.o0 .xf, jrn := scat && decide (0 < s.fr.clk.cdlev) }
      (z.kind = (if scat then .scatf else .gathf) ∧ z.trig = s.sc ∧ z.td = s.fc.sp.td.get (Fin.ofNat 32 (x.b % 32)) ∧
        z.len = x.b % 2 ^ 64 / 32 % 2 ^ 13 * (tdCols z.td * tdElem z.td) ∧ z.rem = tdBase z.td ∧ z.rows = [] ∧ z.scr = s.fc.o2 .xf ∧ z.beat = 2048 ∧
        z.slot0 = (if scat then s.sc + 600 + s.fr.d.farAdd else s.sc + 360 + s.fr.d.farAdd) ∧ (scat = false → z.land0 = s.sc + 720 + s.fr.d.farAdd)) ∧
      let trap := fun f => exec i s = .next (s.trapped (.xf (if scat then .scatf else .gathf)) x (xfInfo f))
      (∀ k, gathDesc y.td = some k → trap (0x25, x.b % 32, k, 0)) ∧
      (gathDesc y.td = none → y.len ≠ 0 → ∀ f, gathAddr (s.fc.o0 .xf) y = some f → trap f ∧
        f.1 = if (∃ m, m < y.listSlots ∧ scrIn (s.fc.o0 .xf + 256 * m) 256 = false) ∨ (∃ j, j < y.beats ∧ scrIn (y.scrAt j) (y.blen j) = false) then 0x21 else 0x20) ∧
      (gathDesc y.td = none → y.len ≠ 0 → gathAddr (s.fc.o0 .xf) y = none → z.jrn = true → s.fr.d.jcap < s.fr.jUsed + z.len + 32 →
        trap (0x22, y.rem, 3, 0)) ∧
      (gathDesc y.td = none → y.len = 0 → exec i s = .next (s.took .xf x.b 1 [])) ∧
      (gathDesc y.td = none → y.len ≠ 0 → gathAddr (s.fc.o0 .xf) y = none → (z.jrn = true → s.fr.jUsed + z.len + 32 ≤ s.fr.d.jcap) →
        exec i s = .next (taken s x z)))

/-- xf.amon, in every form, with a legal control word on an aligned near address of a granted bank that no area of the region reserves (R247): the
engine takes the atomic that its control word names, with a value of 4 or 8 bytes and the compare value, whose old value lands at t + 44 + 48 d.
xf.flush lands the token 2^63 + mask on xf.r at t + 640, plus 2 L in band 3, and that stitch joins the open finishes; xf.commit closes the open
finishes, and the transfers that they are of, into a group; xf.wait of a complete group does nothing and of another raises SLIP (R248, R249). That such a
wait has written its port is a choice of the model: log entry 18. -/
def Obligations.AtomicsAndGroups : Prop :=
  (∀ (i : Instr) (x : Trig) (s : State), Fires i (.xf .amon) x s → Ready (.xf .amon) x s →
      let n := if x.b.testBit 4 then 8 else 4
      let a := s.fc.o0 .xf
      nearCheck a n n = none → s.fr.d.nearProt a = none →
      ∃ op, amonOp (x.b % 16) = some op ∧
        let z := mkXfer (.amon op n (BitVec.ofNat 64 (s.fc.o2 .xf % 2 ^ (8 * n))) (BitVec.ofNat 64 (s.fc.o2 .xf / 2 ^ 32))) x.m (s.wrote .xf x.b)
        z.trig = s.sc ∧ z.rem = a ∧ z.len = n ∧ z.beat = n ∧ z.slot0 = s.sc + 36 + 24 * nearDist s.focus.core a ∧
        z.land0 = s.sc + 44 + 48 * nearDist s.focus.core a ∧
        exec i s = .next ((s.took .xf x.b 1 []).modFc (fun c => { c with xf := { c.xf with
          xfers := c.xf.xfers ++ [z], opens := c.xf.opens ++ [z.finish], last := max c.xf.last z.finish } }))) ∧
  ((∀ (i : Instr) (x : Trig) (s : State), Fires i (.xf .flush) x s → (s.fc.unit .xf).busy s.sc = false →
      let f := s.sc + 640 + s.fr.d.farAdd
      exec i s = .next ((s.took .xf x.b 1 [lands64 .xf false s.sc (640 + s.fr.d.farAdd) (BitVec.ofNat 64 (2 ^ 63 + x.b % 2 ^ 16)) 0]).modFc (fun c =>
        { c with xf := { c.xf with opens := c.xf.opens ++ [f], last := max c.xf.last f } }))) ∧
    (∀ (i : Instr) (x : Trig) (s : State), Fires i (.xf .commit) x s → (s.fc.unit .xf).busy s.sc = false →
      ∃ t, exec i s = .next t ∧ t = (s.took .xf x.b 1 []).modFc (fun c => { c with xf := { c.xf with
          opens := [], grp := t.fc.xf.grp, xfers := c.xf.xfers.map (fun y => if y.grp = none then { y with grp := some (x.b % 8) } else y) } }) ∧
        (∀ g : Fin 8, t.fc.xf.grp.get g = if g.val = x.b % 8 then s.fc.xf.opens.foldl max (s.fc.xf.grp.get g) else s.fc.xf.grp.get g)) ∧
    (∀ (i : Instr) (x : Trig) (s : State), Fires i (.xf .wait) x s → (s.fc.unit .xf).busy s.sc = false →
      let done := s.fc.xf.grp.get (Fin.ofNat 8 (x.b % 8))
      exec i s = .next (if done ≤ s.sc then s.took .xf x.b 1 []
        else (s.modFc (fun c => c.writePort .xf 1 x.b)).raiseHere
          { code := 0x10, dst := Op.dst (.xf .wait), baddr := s.fc.cur, w5 := 1, w6 := done, w7 := s.sc })))

/-! ## Synchronisation (spec/10_transfer_sync_ops.md R252 to R266; spec/02_stitch_time.md R38 to R40) -/

/-- sync, arrive, waitrel, halt, tfence and chk, in every form: what each does where its checks pass, and the fault that it raises where they do not
(R38, R40, R100, R253 to R256). It rests on choices of the model: that a failing operation has written its port (log entry 18), and the actual value that
a chk.tok slip records (log entry 24). -/
def Obligations.StringMoves : Prop :=
  ∀ (i : Instr) (o : SyOp) (x : Trig) (s : State), Fires i (.sy o) x s → (s.fc.unit .sy).busy s.sc = false →
    let c := s.fc
    let t := s.sc
    let b := x.b % 2 ^ 64
    let wait : Issue := match c.issue with | .idle r => .waiting r | .halted h => .halted h | _ => .waiting (t + 1)
    let done := s.took .sy x.b 1 []
    let fails := fun code w5 w6 w7 =>
      (s.wrote .sy x.b).raiseHere { code := code, dst := Op.dst (.sy o), baddr := c.cur, w5 := w5, w6 := w6, w7 := w7 }
    match o with
    | .sync => exec i s = .next (if s.fr.member s.focus.core = false then fails 0x15 0 0 0 else if c.arr.isSome then fails 0x10 4 0 0
        else done.modFc (fun c => { c with arr := some t, issue := wait }))
    | .arrive => exec i s = .next (if s.fr.member s.focus.core = false then fails 0x15 0 0 0 else if c.arr.isSome then fails 0x10 4 0 0
        else done.modFc (fun c => { c with arr := some t }))
    | .waitrel => exec i s = .next (if c.arr.isNone then fails 0x10 4 0 0 else done.modFc (fun c => { c with issue := wait }))
    | .halt => exec i s = .next (done.modFc (fun c => { c with issue := .halted (t + 1), redir := [] }))
    | .tfence => exec i s = .next (if c.vstat &&& c.sp.vtrapen = 0 then done else fails 0x30 c.vstat.toNat c.sp.vtrapen.toNat 0)
    | .chk => exec i s = .next (
        if x.m = 0 then if s.fr.clk.ssc = b then done else fails 0x10 2 b s.fr.clk.ssc
        else if c.sp.notify.getLsbD (b % 64) then done else fails 0x10 3 (b % 64) c.sp.notify.toNat)
    | _ => True

/-- ctrig, guard, watch and sysreq, in every form (R263, R264, R266): a plan that is not armed or running is released Dr later; a guard or
watchpoint takes its fields at t + 1; a request raises SYSREQ with its code and arguments; and the faults where the checks fail: a plan that a core
fired in the same stitch is not released, and each core that fired it raises SLIP. It rests on choices of the
model: that a failing ctrig or guard has written its port (log entry 18), and that a ctrig soon after a rollback is accepted (log entry 55). -/
def Obligations.PlanAndGuardMoves : Prop :=
  ∀ (i : Instr) (o : SyOp) (x : Trig) (s : State), Fires i (.sy o) x s → (s.fc.unit .sy).busy s.sc = false →
    let c := s.fc
    let t := s.sc
    let a := c.o0 .sy
    let b := x.b % 2 ^ 64
    let k := c.o2 .sy
    let fails := fun code w5 w6 w7 =>
      (s.wrote .sy x.b).raiseHere { code := code, dst := Op.dst (.sy o), baddr := c.cur, w5 := w5, w6 := w6, w7 := w7 }
    match o with
    | .ctrig =>
      (s.fr.plans.find? (fun p => p.handle == b % 2 ^ 32) = none → exec i s = .next (fails 0x22 (b % 2 ^ 32) 4 0)) ∧
      (∀ p, s.fr.plans.find? (fun p => p.handle == b % 2 ^ 32) = some p →
        (∀ t0 core b0 cl, p.fired = some (t0, core, b0, cl) → t0 ≠ t) →
        (p.rel = none → exec i s = .next ((s.took .sy x.b 1 []).modFr (fun r =>
          r.setPlan { p with rel := some (t + s.fr.d.dr), fired := some (t, s.focus.core, c.cur, false) }))) ∧
        (p.rel.isSome → exec i s = .next (fails 0x10 6 p.fin t))) ∧
      (∀ p core0 b0 cl, s.fr.plans.find? (fun p => p.handle == b % 2 ^ 32) = some p → p.fired = some (t, core0, b0, cl) →
        let slip := fun bd => ({ code := 0x10, dst := Op.dst (.sy .ctrig), baddr := bd, w5 := 6, w6 := p.fin, w7 := t } : FaultInfo)
        let u := s.wrote .sy x.b
        exec i s = .next (((if cl then u else u.raise s.focus.rg core0 t (slip b0)).raiseHere (slip c.cur)).modFr (fun r =>
          r.setPlan { p with rel := none, fired := some (t, core0, b0, true) })))
    | .guard =>
      let bad := b / 4 % 2 = 0 ∧ 2 ^ 21 ≤ a % 2 ^ 33 ∨ b / 4 % 2 = 1 ∧ nearIn (a % 2 ^ 33) = false
      (bad → exec i s = .next (fails 0x21 (a % 2 ^ 33) (k % 2 ^ 29) (b / 4 % 2))) ∧
      (¬bad → exec i s = .next (s.took .sy x.b 1 [{ due := t + 1, trig := t, tgt := .special (0x30 + b % 4) (BitVec.ofNat 64
        ((if k % 2 ^ 29 = 0 then 0 else 2 ^ 63) + b / 4 % 2 * 2 ^ 62 + k % 2 ^ 29 * 2 ^ 33 + a % 2 ^ 33)) true }]))
    | .watch => exec i s = .next (s.took .sy x.b 1 [{ due := t + 1, trig := t, tgt := .special (0x38 + b % 2) (BitVec.ofNat 64
        (b / 64 % 2 * 2 ^ 63 + b / 2 % 4 * 2 ^ 61 + b / 8 % 8 * 2 ^ 58 + a % 2 ^ 52)) true }])
    | .sysreq => exec i s = .next (fails 0x43 (b % 2 ^ 16) a k)
    | _ => True

/-- brk, in every form, raises BREAK with the low 16 bits of its operand and its bundle's address; and a held region outside any domain, not kept by a vote
(R367), whose causes are all resolved BREAK causes and whose limits nobody has written meanwhile (R312), thaws with its clock where it stood, its cores as they were but for the records, which a thaw clears (R265). -/
def Obligations.BreakAndContinue : Prop :=
  (∀ (i : Instr) (x : Trig) (s : State), Fires i (.sy .brk) x s → (s.fc.unit .sy).busy s.sc = false →
    exec i s = .next ((s.wrote .sy x.b).raiseHere { code := 0x42, dst := Op.dst (.sy .brk), baddr := s.fc.cur, w5 := x.b % 2 ^ 16 })) ∧
  (∀ (s : State) (rg : Nat), (s.rgn rg).d.state = 3 → (s.rgn rg).seg.held = true → (s.rgn rg).kept = false →
    (∀ k ∈ (s.rgn rg).seg.causes, k.code = 0x42 ∧ k.resolved = true) → (s.rgn rg).doms = [] → (s.rgn rg).closing = none →
    (s.rgn rg).d.wdogNew = none → (s.rgn rg).d.plimNew = none →
    ∃ t, exec (.thaw rg) s = .next t ∧ (t.rgn rg).d = { (s.rgn rg).d with state := 2 } ∧ (t.rgn rg).clk = (s.rgn rg).clk ∧
      (t.rgn rg).seg.held = false ∧ (t.rgn rg).seg.causes = [] ∧
      ∀ id, t.core id = s.core id ∨ t.core id = { s.core id with frec := [], ovf := false })

/-- phint, cdopen and cdclose, in every form (R58, R257 to R259, R261): each is noted for the check that every core issued it; the first phint in an
armed region is the pre-emption point, and adds the PREEMPT cause. A cdopen whose liveness entry, near range or grant fails raises BOUNDS, ALIGN or
PROTECTION, in that order, with nothing noted. It rests on choices of the model: log entries 13, 18, 50. -/
def Obligations.ContainmentMoves : Prop :=
  ∀ (i : Instr) (o : SyOp) (x : Trig) (s : State), Fires i (.sy o) x s → (s.fc.unit .sy).busy s.sc = false →
    let c := s.fc
    let t := s.sc
    let a := c.o0 .sy
    let n := c.o2 .sy
    let e := x.b % 2 ^ 10
    let me := s.fr.d.relOf s.focus.core
    let done := s.took .sy x.b 1 []
    let slip := (s.wrote .sy x.b).raiseHere { code := 0x10, dst := Op.dst (.sy o), baddr := c.cur, w5 := 5, w7 := s.fr.clk.cdlev }
    match o with
    | .phint =>
      let noted := done.modFr (fun r => r.noteSame .phint t { core := me, baddr := c.cur, entry := e })
      exec i s = .next (
        if s.fr.pre.armed = true ∧ s.fr.pre.point = none then
          (noted.modFr (fun r => { r with pre := { r.pre with point := some t, named := [(me, e)] } })).addCause s.focus.rg t 0x72
        else if s.fr.pre.point = some t then noted.modFr (fun r => { r with pre := { r.pre with named := mset r.pre.named me e } })
        else noted)
    | .cdopen =>
      let busy := s.fr.clk.cdlev = 4 ∨ t < c.xf.last ∨ (∃ m ∈ c.mx.muls, t < m.finish) ∨ (∃ m ∈ c.mx.moves, t < m.finish)
      (busy → exec i s = .next slip) ∧
      (¬busy → c.liveBad e = false →
        (n = 0 ∨ (a + n ≤ 2 ^ 33 ∧ a % 32 = 0 ∧ n % 32 = 0 ∧ ∀ r ∈ nearCuts a n, nearOne r.1 r.2 = true ∧ s.fr.d.granted r.1 = true)) →
        exec i s = .next (done.modFr (fun r => r.noteSame .cdopen t { core := me, baddr := c.cur, entry := e, a := a, len := n }))) ∧
      (let fails := fun code w5 w6 w7 =>
          exec i s = .next ((s.wrote .sy x.b).raiseHere { code := code, dst := Op.dst (.sy o), baddr := c.cur, w5 := w5, w6 := w6, w7 := w7 })
        let mapped := a + n ≤ 2 ^ 33 ∧ ∀ r ∈ nearCuts a n, nearOne r.1 r.2 = true
        ¬busy → (c.liveBad e = true → fails 0x21 e 0 0) ∧
          (c.liveBad e = false → n ≠ 0 → (¬mapped → fails 0x21 a n 1) ∧
            (mapped → ¬(a % 32 = 0 ∧ n % 32 = 0) → fails 0x20 a n 1) ∧
            (mapped → a % 32 = 0 → n % 32 = 0 → ∀ r l, nearCuts a n = l → l.find? (fun r => !s.fr.d.granted r.1) = some r → fails 0x22 r.1 0 0)))
    | .cdclose =>
      let late := s.fr.clk.cdlev = 0 ∨ s.fr.journalLate c me t = true
      (late → exec i s = .next slip) ∧
      (¬late → exec i s = .next (done.modFr (fun r => r.noteSame .cdclose t { core := me, baddr := c.cur, entry := 0 })))
    | _ => True

/-! ## The timetable of a core (spec/02_stitch_time.md R34; spec/03_core.md R62 to R70, R89; spec/07_scalar_ops.md R179) -/

/-- BUNDLE_ISSUE: a core that issues a clean bundle which passes the checks of R64 queues its moves, and its next address is the one after it; a
bundle that fails, or that uses a poisoned byte or value, raises its fault and runs no move. IDLE_END: a core whose count has run out issues.
BRANCH_REDIRECT: a core that issues takes the target of the latest redirect due, and drops those that are. LANDING of one record or of two, with no step
of a multiply visible, no multiply or tile move finished and no row of a tile store written in the stitch: its flags are set, its value is delivered
where it says, a masked one over the bits that the latch had before the stitch, and the record is gone (R68, R78, R88, R192, R231). Two that are due
together land in the order of R69, that of their triggers, after the special registers, a sy write after a cr write (R264); a second write-back of one
register raises WRITEBACK_COLLISION, and has no effect (R88). A poisoned record raises DATA_UNCORRECTABLE and lands nothing (R358). It rests on a choice
of the model: log entry 33 (where a mark lies and when it goes, and poison before the checks of R64). -/
def Obligations.IssueAndLanding : Prop :=
  (∀ (rg c : Nat) (s : State),
      let u := s.onRg rg
      let id := (s.rgn rg).d.coreAt c
      let k := s.core id
      let k1 := { k with cur := k.pc, pc := nextBundle k.imem k.pc }
      let cuts := cutBundle k.imem 6 k.pc
      (k.issue = .issuing → ∀ q m, (firstPoison k.imemP k.pc (nextBundle k.imem k.pc - k.pc)).or (k.regPoison cuts) = some (q, m) →
        ∃ f : FaultInfo, exec (.bundleIssue rg c) s = .next ({ u.setCore id k1 with free := s.free + 1 }.raise rg id u.sc f) ∧
          f.code = 0x50 ∧ f.cls = m.cls ∧ f.baddr = k.pc ∧ f.w7 = m.unit) ∧
      (k.issue = .issuing → firstPoison k.imemP k.pc (nextBundle k.imem k.pc - k.pc) = none → k.regPoison cuts = none →
        (bundleFault k1 u.sc ((List.range cuts.length).zip cuts) = none → ∃ l, exec (.bundleIssue rg c) s =
            .next { u.setCore id (k1.unmark (cutPorts cuts).contains) with focus := { u.focus with core := id, moves := l } } ∧
          l.Perm (cuts.map Prod.fst)) ∧
        (∀ f, bundleFault k1 u.sc ((List.range cuts.length).zip cuts) = some f → exec (.bundleIssue rg c) s = .next ((u.setCore id k1).raise rg id u.sc f))) ∧
      (∀ r, k.issue = .idle r → r ≤ u.sc → exec (.idleEnd rg c) s = .next (u.setCore id { k with issue := .issuing })) ∧
      (∀ r, k.issue = .issuing → (k.redir.filter (fun r => decide (r.due ≤ u.sc))).getLast? = some r →
        exec (.branchRedirect rg c) s = .next (u.setCore id { k with pc := r.target, redir := k.redir.filter (fun r => decide (u.sc < r.due)) }))) ∧
  (∀ (rg c : Nat) (s : State) (x : Landing) (l : List Landing),
      let u := s.onRg rg
      let id := (s.rgn rg).d.coreAt c
      let k := s.core id
      let k0 := { k with lands := k.lands.filter (fun l => l.due != u.sc) }
      let land := fun (c0 : Core) (x : Landing) =>
        let c := { c0 with sp := { c0.sp with vstat := c0.sp.vstat ||| x.fl } }
        match x.tgt with
        | .latch n true v m => (c.unmark (fun q => q == latchKey n true && m == 0)).setUnit n { c.unit n with h := (v &&& ~~~m) ||| ((k.unit n).h &&& m) }
        | .latch n false v m => (c.unmark (fun q => q == latchKey n false && m == 0)).setUnit n { c.unit n with r := (v &&& ~~~m) ||| ((k.unit n).r &&& m) }
        | .special n v _ => { c.unmark (fun q => q == crKey n && n != 0x10 && n != 0x14) with sp := c.sp.write n v }
        | .tagSet j e => { c.unmark (fun q => q == slotKey j) with tags := mset c.tags j e }
        | .tagInv j => { c with tags := mset c.tags j (mgetD c.tags j 0 &&& (BitVec.allOnes 127).setWidth 128) }
        | .tile n _ w => c.tileWrite n w
        | .vback n v d b => { c with endW := c.endW ++ [.vback n v d b] }
      let sound := fun (x : Landing) => mget k.regP (recKey x.unit x.trig) = none ∧ ∀ n v d b, x.tgt = .vback n v d b → k.writtenBack n = none
      k.lands.filter (fun l => l.due == u.sc) = x :: l → k.mx.rowFl = [] → (∀ m ∈ k.mx.muls, m.landStep u.sc = none ∧ u.sc < m.finish) →
      (∀ m ∈ k.mx.moves, u.sc < m.finish ∧ (m.load = true ∨ m.slotAt u.sc = none)) →
      (l = [] → (sound x → exec (.landing rg c) s = .next (u.setCore id (land k0 x))) ∧
        ∀ m, mget k.regP (recKey x.unit x.trig) = some m → ∃ f : FaultInfo,
          exec (.landing rg c) s = .next ({ u.setCore id k0 with free := s.free + 1 }.raise rg id u.sc f) ∧ f.code = 0x50 ∧ f.cls = m.cls ∧ f.w7 = m.unit) ∧
      (∀ y p q, l = [y] → sound x → sound y → (p, q) = (if x.rank ≤ y.rank then (x, y) else (y, x)) →
        ((∀ n v d b v' d' b', p.tgt = .vback n v d b → q.tgt ≠ .vback n v' d' b') → exec (.landing rg c) s = .next (u.setCore id (land (land k0 p) q))) ∧
        ∀ n v d b v' d' b', p.tgt = .vback n v d b → q.tgt = .vback n v' d' b' → exec (.landing rg c) s =
          .next ((u.setCore id (land k0 p)).raise rg id u.sc { code := 0x04, dst := d', baddr := b', w5 := 0xfa0 + n.val, w6 := 0xfff })))

/-- BANK_SLOT of a scratchpad bank that several accesses claim: BANK_CONFLICT with the first two claimants, and none of them takes effect: no record
lands, no register, tile or tag changes, nor a byte of the scratchpad, but that a stored row whose second slot is contested is as it was before its
first. BANK_SLOT of the only claim on a bank (R118, R185 to R190): a load of clean bytes lands them at t + 3, extended; an atomic lands the
old value at t + 4 and leaves its write for the next slot; a store writes its bytes, those of the groups that are on, and no other. A row of a tile
load lands the values of its elements in the tile's row two stitches later, an FP one exact and an integer one wrapped to 32 bits, with their flags; a row
of a tile store writes the converted elements, 256 bytes in a slot, and no other byte, and sets their flags (R232). A multiply's slice is the bytes of
each lane for its step, and a side fetch the metadata or the scales of R226 (R218 to R220). A slot of an index list gives the rows that its indices
name, where the core's cache holds their pages (R246). It rests on choices of the model: log entries 20, 33 (where a mark lies), 47 (the order of the
claimants that a record names). -/
def Obligations.BankSlots : Prop :=
  (∀ (rg c bank : Nat) (s : State) (q1 q2 : ClaimRec) (l : List ClaimRec),
    let u := s.onRg rg
    let id := (s.rgn rg).d.coreAt c
    let k := s.core id
    let v := u.raise rg id u.sc { code := 0x11, dst := q1.2.1, w5 := bank % 64, w6 := q1.2.1, w7 := q2.2.1 }
    (u.scrClaims u.fr id u.sc).filter (fun q => q.1 == bank) = q1 :: q2 :: l →
    ∃ t, exec (.bankSlot rg c bank) s = .next t ∧ t.near = s.near ∧ t.mv = s.mv ∧ t.far = s.far ∧ (t.rgn rg).seg = (v.rgn rg).seg ∧
      t.core id = { v.core id with banks := (t.core id).banks, mx := (t.core id).mx, xf := (t.core id).xf, scr := (t.core id).scr, scrP := (t.core id).scrP } ∧
      ((∀ q ∈ q1 :: q2 :: l, ∀ trg i, q.2.2 ≠ .row trg i 1) → (t.core id).scr = k.scr) ∧
      (∀ w n a, (bank, w, .acc n) ∈ q1 :: q2 :: l → k.banks[n]? = some a → ∀ b, (t.core id).banks[n]? = some b →
        b.due = 0 ∨ b.due = u.sc + 1 ∧ b.kind = .atomWr none 0) ∧
      ∀ w trg j x, (bank, w, .land trg j) ∈ q1 :: q2 :: l ∨ (bank, w, .read trg j) ∈ q1 :: q2 :: l → k.xfer trg = some x →
        ∃ y, (t.core id).xfer trg = some y ∧ j ∈ y.gone) ∧
  (∀ (rg c bank who n : Nat) (s : State) (a : BankAcc),
    let u := s.onRg rg
    let id := (s.rgn rg).d.coreAt c
    let k := s.core id
    let k1 := { k with banks := k.banks.eraseIdx n }
    let x := Memory.readLE k.scr a.addr a.size
    (u.scrClaims u.fr id u.sc).filter (fun q => q.1 == bank) = [(bank, who, .acc n)] → k.banks[n]? = some a → mget k.regP (recKey .ls a.trig) = none →
    (firstPoison k.scrP a.addr a.size = none →
      (∀ sg, a.kind = .load sg → exec (.bankSlot rg c bank) s = .next (u.setCore id { k1 with lands := k1.lands ++ [{
        due := a.trig + 3, trig := a.trig
        tgt := .latch .ls false (if sg = true ∧ a.size < 8 then ((BitVec.ofNat (8 * a.size) x).signExtend 64).setWidth 2048 else BitVec.ofNat 2048 x) 0 }] })) ∧
      (∀ op v cmp, a.kind = .atomRd op v cmp →
        let w := atomNew op a.size x v.toNat cmp.toNat
        exec (.bankSlot rg c bank) s = .next (u.setCore id { k1 with
          lands := k1.lands ++ [{ due := a.trig + 4, trig := a.trig, tgt := .latch .ls false (BitVec.ofNat 2048 x) 0 }]
          banks := k1.banks ++ [{ a with due := a.due + 1, kind := .atomWr (w.1.map (BitVec.ofNat 64)) w.2 }] }))) ∧
    (∀ data on, a.kind = .store data on → Memory.wf k.scr = true → a.addr + a.size ≤ 0x180000 → a.size ≤ 256 →
      ∃ t, exec (.bankSlot rg c bank) s = .next t ∧ (t.core id).banks = k1.banks ∧ (t.core id).regs = k.regs ∧
        (∀ p, Memory.read (t.core id).scr p =
          if a.addr ≤ p ∧ p < a.addr + a.size ∧ (a.size = 256 → on.getLsbD ((p - a.addr) / 4) = true) then data.extractLsb' (8 * (p - a.addr)) 8
          else Memory.read k.scr p))) ∧
  (∀ (rg c bank who trg : Nat) (s : State),
    let u := s.onRg rg
    let id := (s.rgn rg).d.coreAt c
    let k := s.core id
    let only := fun (q : Claim) => (u.scrClaims u.fr id u.sc).filter (fun q => q.1 == bank) = [(bank, who, q)]
    k.scrP = [] →
    (∀ i part m, only (.row trg i part) → k.mx.moves.find? (fun m => m.trig == trg) = some m →
      let e := tdElem m.td
      let row := tdBase m.td + i * tdStride m.td
      (m.load = true →
        let el := fun j => let x := Memory.readLE k.scr (row + e * j) e
          match Fmt.ofCode (tdFmt m.td) with
          | some (.f F) => cvtFF F .fp32 .rne true x
          | some (.i I) => ⟨(BitVec.ofInt 32 (I.value x)).toNat, 0⟩
          | _ => ⟨0, 0⟩
        let ws := (List.range m.cols).map (fun j => (64 * i + j, BitVec.ofNat 32 (el j).val))
        ∃ fl, exec (.bankSlot rg c bank) s = .next (u.setCore id { k with lands := k.lands ++ [{ due := u.sc + 2, trig := trg, fl := fl, tgt := .tile m.tile (16 * i) ws }] }) ∧
          ∀ b, b < 7 → (fl.getLsbD b = true ↔ ∃ j, j < m.cols ∧ (el j).fl.getLsbD b = true)) ∧
      (m.load = false → i ∉ m.bad → m.rowMark k i = none → Memory.wf k.scr = true → row + e * m.cols ≤ 0x180000 →
        let el := fun j => let x := (k.tileAt m.tile i j).toNat
          match Fmt.ofCode (tdFmt m.td) with
          | some (.f F) => cvtFF .fp32 F m.rm true x
          | some (.i I) => cvtII .i32 I true x
          | _ => ⟨0, 0⟩
        ∃ t, exec (.bankSlot rg c bank) s = .next t ∧ (t.core id).regs = k.regs ∧ (t.core id).tiles = k.tiles ∧
          (∀ p, Memory.read (t.core id).scr p =
            if row + 256 * part ≤ p ∧ p < row + 256 * (part + 1) ∧ p < row + e * m.cols then
              BitVec.ofNat 8 ((el ((p - row) / e)).val / 2 ^ (8 * ((p - row) % e))) else Memory.read k.scr p) ∧
          ∀ b, b < 7 → ((t.core id).sp.vstat.getLsbD b = true ↔ k.sp.vstat.getLsbD b = true ∨ ∃ j, j < m.cols ∧ (el j).fl.getLsbD b = true))) ∧
    (∀ isB n m, only (.slice trg isB n) → k.mx.muls.find? (fun m => m.trig == trg) = some m →
      let d := if isB then m.b else m.a
      let w := if isB && m.sparse then 4 else 2
      let l := (List.range (tdRows d)).flatMap (fun a => (List.range w).map (fun q => Memory.read k.scr (tdBase d + a * tdStride d + w * (n - 1) + q)))
      exec (.bankSlot rg c bank) s = .next (u.setCore id { k with mx := { k.mx with muls := k.mx.muls.map (fun q => if q.trig = trg then
        { q with slices := mset q.slices n (if isB then ((mgetD q.slices n ([], [])).1, l) else (l, (mgetD q.slices n ([], [])).2)) } else q) } })) ∧
    (∀ key m as, only (.side trg key) → k.mx.muls.find? (fun m => m.trig == trg) = some m → m.sideFetch u.sc = some (key, as) → m.steps < 8192 →
      (key < 4096 → as = (List.range (if m.r = 1 then 128 else 256)).map (fun q => tdMbase m.a + (if m.r = 1 then 128 else 256) * key + q)) ∧
      (4096 ≤ key → key < 8192 → as = (List.range (tdRows m.a)).map (fun l => tdSbase m.a + l * (tdStride m.a / 16) + (key - 4096))) ∧
      (8192 ≤ key → as = (List.range (tdRows m.b)).map (fun l => tdSbase m.b + l * (tdStride m.b / 16) + (key - 8192))) ∧
      exec (.bankSlot rg c bank) s = .next (u.setCore id { k with mx := { k.mx with muls := k.mx.muls.map (fun q => if q.trig = trg then
        { q with sides := mset q.sides key (as.map (Memory.read k.scr)) } else q) } })) ∧
    (∀ n x, only (.list trg n) → k.xfer trg = some x → x.gone = [] →
      let rows := (List.range (min 64 (x.rowCount - 64 * n))).map (fun i => tdBase x.td + Memory.readLE k.scr (x.list + 256 * n + 4 * i) 4 * tdStride x.td)
      let look := k.lookSpans (rows.map (fun a => (a, tdCols x.td * tdElem x.td)))
      (∀ a ∈ rows, a + tdCols x.td * tdElem x.td ≤ 2 ^ 52) → look.2 = [] → (x.farWrite = true → ∀ p ∈ look.1, leafW p.2 = true) →
      exec (.bankSlot rg c bank) s = .next (u.setCore id (k.setXfer { x with rows := x.rows ++ rows, leaves := msets look.1 x.leaves }))))

/-! ## Beats on their way (spec/13_programs_region.md R303; spec/10_transfer_sync_ops.md R241 to R247; spec/05_memory.md R124, R126) -/

/-- ROUTER_FLIT on an enabled route whose entries are clean: a beat that has passed the router before notes the next one. BEAT_LANDING of the only claim on a bank: the
bytes that a get brought are in the scratchpad, and no other byte changes; a beat of a send of this package that the recv expects is written there too.
It rests on choices of the model: log entries 20, 23, 33 (the key of a route's entries among a region's marks). -/
def Obligations.FlitsAndLandings : Prop :=
  ∀ (rg c trig j : Nat) (s : State) (x : Xfer),
    let u := s.onRg rg
    let id := (s.rgn rg).d.coreAt c
    let k := s.core id
    k.xfer trig = some x → x.gone.contains j = false →
    (∀ e i, mget (s.rgn rg).routes x.route = some e → e.on = true → mget (s.rgn rg).badP (1 + x.route) = none → e.hopAt x j u.sc = some i →
      (if i = 0 then (mget x.data j).isSome = true else mget x.hops j = some (i - 1)) →
      exec (.routerFlit rg c trig j) s = .next (u.setCore id (k.setXfer { x with hops := mset x.hops j i }))) ∧
    (∀ (bank who : Nat) (ch : Chunk), bank < 3 → Memory.wf k.scr = true →
      (u.scrClaims u.fr id u.sc).filter (fun q => q.1 == bank) = [(bank, who, .land trig j)] →
      (if x.kind = .recv then (∀ e, mget u.fr.routes x.route = some e → e.sp = u.fr.d.pkg) ∧ ∃ q, (u.arrivals u.fr id u.sc).find? (fun q => q.1 == x.route) = some q ∧ u.beatOf u.fr q = some ch
        else mget x.data j = some ch) →
      x.scrAt j + ch.bytes.length ≤ 0x180000 →
      ∃ t, exec (.beatLanding rg c bank) s = .next t ∧ (t.core id).regs = k.regs ∧
        ∀ p, Memory.read (t.core id).scr p =
          if x.scrAt j ≤ p ∧ p < x.scrAt j + ch.bytes.length then ch.bytes.getD (p - x.scrAt j) 0 else Memory.read k.scr p)

/-- NEAR_BANK_ACCESS of the only claim on a near bank, outside the application of a journal: a get reads its bytes with their marks, a put writes
its bytes and no other, and an atomic lands the old value and writes the new one (R241, R247). Of a bank that several accesses claim: BANK_CONFLICT at
the origin core, of SPACE 2 where they are all an engine's, and no memory, register, latch or landing changes (R118, R124, R297, R354, R357). It rests on
choices of the model: log entries 20, 47. -/
def Obligations.NearSlots : Prop :=
  (∀ (rg bank : Nat) (s : State) (q1 q2 : ClaimRec) (l : List ClaimRec),
    let u := s.onRg rg
    let o := (s.rgn rg).d.coreAt 0
    let sp := if (q1 :: q2 :: l).all (fun q => match q.2.2 with | .eng _ => true | _ => false) then 2 else 1
    let v := u.raise rg o u.sc { code := 0x11, dst := q1.2.1, w5 := sp * 2 ^ 6 + bank % 64, w6 := q1.2.1, w7 := q2.2.1 }
    (u.nearClaims u.fr u.sc).filter (fun q => q.1 == bank) = q1 :: q2 :: l →
    ∃ t, exec (.nearBankAccess rg bank) s = .next t ∧ t.near = s.near ∧ t.mv = s.mv ∧ t.far = s.far ∧ (t.rgn rg).seg = (v.rgn rg).seg ∧
      (∀ id, t.core id = { v.core id with xf := (t.core id).xf }) ∧
      ∀ w id trg j x, (bank, w, .near id trg j) ∈ q1 :: q2 :: l → (s.core id).xfer trg = some x → ∃ y, (t.core id).xfer trg = some y ∧ j ∈ y.gone) ∧
  ∀ (rg id trig j bank who : Nat) (s : State) (x : Xfer),
    let u := s.onRg rg
    let k := s.core id
    let a := x.rem + x.beat * j
    k.xfer trig = some x → x.gone.contains j = false → (s.rgn rg).apply = [] → Memory.wf s.near = true →
    (u.nearClaims u.fr u.sc).filter (fun q => q.1 == bank) = [(bank, who, .near id trig j)] →
    (x.kind = .getn → exec (.nearBankAccess rg bank) s = .next (u.setCore id (k.setXfer { x with data := mset x.data j (readChunk s.near s.nearP a (x.blen j)) }))) ∧
    (∀ ch, x.kind = .putn → mget x.data j = some ch → ∃ t, exec (.nearBankAccess rg bank) s = .next t ∧
      ∀ p, Memory.read t.near p = if a ≤ p ∧ p < a + ch.bytes.length then ch.bytes.getD (p - a) 0 else Memory.read s.near p) ∧
    (∀ op n v cmp, x.kind = .amon op n v cmp → n ≤ 8 → firstPoison s.nearP a n = none →
      let old := Memory.readLE s.near a n
      let w := atomNew op n old v.toNat (cmp.toNat % 2 ^ 32)
      ∃ t, exec (.nearBankAccess rg bank) s = .next t ∧
        (t.core id).lands = k.lands ++ [{ due := x.trig + (x.land0 - x.trig), trig := x.trig, tgt := .latch .xf false (BitVec.ofNat 2048 old) 0, fl := w.2 }] ∧
        ∀ p, Memory.read t.near p =
          match w.1 with
          | some y => if a ≤ p ∧ p < a + n then BitVec.ofNat 8 (y / 2 ^ (8 * (p - a))) else Memory.read s.near p
          | none => Memory.read s.near p)

/-- FAR_PROBE, FAR_READ and REBUILD_DECISION (R126, R378, R401): with every H-die in order a probe finds nothing and a read takes the bytes that the
region sees; a probe of a read at a lost H-die gives REBUILD with its stitch as cause stitch; a beat found blocked is decided once, and is then not
performed, with DATA_UNCORRECTABLE, while what it needs is lost. It rests on choices of the model: log entries 11, 12, 17. -/
def Obligations.FarReads : Prop :=
  ∀ (rg c trig j : Nat) (s : State) (x : Xfer),
    let u := s.onRg rg
    let id := (s.rgn rg).d.coreAt c
    let k := s.core id
    k.xfer trig = some x → x.gone.contains j = false →
    (s.hdies.lost = [] → s.hdies.rebuild = [] → s.hdies.spares = [] → s.farP = [] →
      exec (.farProbe rg c trig j) s = .next u ∧
      (x.farRead = true → exec (.farRead rg c trig j) s = .next (u.setCore id (k.setXfer { x with
        data := mset x.data j (u.regionRead u.fr (x.runs j) (x.blen j)) })))) ∧
    (∀ r : FarRun, x.farRead = true → x.runs j = [r] → leafProt r.leaf = false → s.hGone r.h = true → (s.rgn rg).seg.causes = [] →
      exec (.farProbe rg c trig j) s = .next (u.setRgn rg ((s.rgn rg).addCause { code := 0x71, cs := (s.rgn rg).stamp u.sc, tag := s.hPhys r.h }))) ∧
    (mget x.bad j = some u.sc → u.beatBlocked x j = true → ∃ t, exec (.rebuildDecision rg c trig j) s = .next t ∧
      (∃ y, (t.core id).xfer trig = some y ∧ y.gone = x.gone ++ [j] ∧ y.bad = mdel x.bad j) ∧
      ∃ q ∈ (t.rgn rg).seg.causes, q.code = 0x50 ∧ q.cls = 10) ∧
    (mget x.bad j = some u.sc → u.beatBlocked x j = false → u.beatRebuilding x j = false → x.farRead = false →
      exec (.rebuildDecision rg c trig j) s = .next (u.setCore id (k.setXfer { x with bad := mdel x.bad j })))

/-- FAR_WRITE_EFFECT while no two beats of the region's stitch share a byte (R126, R129, R260, R261, R361, R378): a release write first makes the
journal that a close left visible. Outside a domain the bytes of the beat's pages whose effect stitch this is are then written to far memory, and a
journal that still waits to be applied gives way to them; while journalled far memory is as it was, and the journal holds those bytes with their
stitch, the beat in its place in near memory behind the entry's header. A lost H-die of a page written gives REBUILD. Every core keeps all but its
fault records. A beat of one run of an unprotected page, with every H-die in order, changes the bytes of that run and no other. It rests on choices
of the model: log entries 13, 23, 41. -/
def Obligations.FarEffects : Prop :=
  ∀ (rg c trig j : Nat) (s : State) (x : Xfer) (ch : Chunk),
    let u := s.onRg rg
    let r := s.rgn rg
    let id := r.d.coreAt c
    let rs := x.dueRuns j u.sc
    let u1 := if x.mod = true ∧ j = 0 ∧ r.apply ≠ [] then u.applyJournal rg else u
    let frame := fun (t : State) => t.mv = s.mv ∧ t.maps = s.maps ∧ t.inputs = s.inputs ∧
      (∀ q, t.core q = { s.core q with frec := (t.core q).frec, ovf := (t.core q).ovf }) ∧
      ∀ h ∈ rs.flatMap (fun q => leafDies q.leaf), s.hGone h = true → ∃ q ∈ (t.rgn rg).seg.causes, q.code = 0x71 ∧ q.tag = s.hPhys h
    (s.core id).xfer trig = some x → x.gone.contains j = false → x.farWrite = true → mget x.data j = some ch →
    (∀ a ∈ u.farDue u.fr u.sc, ∀ b ∈ u.farDue u.fr u.sc, farClash a b = none) →
    (x.jrn = false → ∃ t, exec (.farWriteEffect rg c trig j) s = .next t ∧ frame t ∧ t.near = s.near ∧
      t.far = (u1.writeRuns rs ch).far ∧ t.farP = (u1.writeRuns rs ch).farP ∧ t.hdies = (u1.writeRuns rs ch).hdies ∧
      (t.rgn rg).apply = ((u1.rgn rg).cutApply rs).apply ∧
      ∀ q, rs = [q] → leafProt q.leaf = false → r.apply = [] → s.hdies.lost = [] → s.hdies.copy = [] → Memory.wf s.far = true →
        let base := s.hKey (leafOwn q.leaf) (leafOfs q.leaf + q.v)
        ∀ key, Memory.read t.far key = if base ≤ key ∧ key < base + q.len then ch.bytes.getD (q.pos + (key - base)) 0 else Memory.read s.far key) ∧
    (∀ e, x.jrn = true → r.journal.find? (fun e => e.trig == x.trig && e.core == r.d.relOf id) = some e →
      let e1 := { e with eff := x.effAt 0, prot := e.prot || x.prot j
                         beats := mset e.beats (2 * j + (if rs.any (fun q => leafProt q.leaf) then 1 else 0)) (u.sc, ch.bytes.length, rs) }
      let w := (u1.writeArea r.d.jrnBanks e.pos ⟨toBytes 32 e1.header, []⟩).writeArea r.d.jrnBanks (e.pos + 32 + 2048 * j) ch
      ∃ t, exec (.farWriteEffect rg c trig j) s = .next t ∧ frame t ∧ t.far = u1.far ∧ t.farP = u1.farP ∧ t.near = w.near ∧ t.nearP = w.nearP ∧
        (t.rgn rg).journal = r.journal.map (fun q => if q.trig = x.trig ∧ q.core = r.d.relOf id then e1 else q))

/-- A byte written to an unprotected page of an H-die in service reads back, and no other key of far memory changes; one written to a sound group of
a protected page reads back without the poison that its place carried, and the group's P and Q are those of its data (R320, R325, R326, R372,
R403). -/
def Obligations.FarBytes : Prop :=
  ∀ (s : State) (l : BitVec 64) (v : Nat) (b : Byte), Memory.wf s.far = true → s.hdies.lost = [] → s.hdies.rebuild = [] → s.hdies.spares = [] →
    s.hdies.copy = [] → s.farP = [] → (leafProt l = true → (s.stripeKeys l (v / 1024) (v % 256)).Nodup ∧ (s.hdies.carried.map Prod.fst).Nodup) →
    let t := s.writeFarByte l v b none
    let d := fun m => Memory.read t.far ((t.stripeKeys l (v / 1024) (v % 256)).getD m 0)
    let left := if leafProt l then mdel s.hdies.carried ((leafLoc l v).1 * 2 ^ 37 + (leafLoc l v).2) else s.hdies.carried
    t.farByte l v = (b, none) ∧ t = { s with far := t.far, hdies := { s.hdies with carried := left } } ∧
    (leafProt l = false → ∀ key, key ≠ s.hKey (leafLoc l v).1 (leafLoc l v).2 → Memory.read t.far key = Memory.read s.far key) ∧
    (leafProt l = true → (∀ key, key ∉ s.stripeKeys l (v / 1024) (v % 256) → Memory.read t.far key = Memory.read s.far key) ∧
      (∀ m < 4, m ≠ v % 1024 / 256 → d m = Memory.read s.far ((s.stripeKeys l (v / 1024) (v % 256)).getD m 0)) ∧
      d 4 = d 0 ^^^ d 1 ^^^ d 2 ^^^ d 3 ∧ d 5 = d 0 ^^^ gfMul 2 (d 1) ^^^ gfMul 4 (d 2) ^^^ gfMul 8 (d 3))

/-- Any two of the six stripes of a group may be lost: from the rest, with P and Q by R372, the data bytes are recovered (R373). It rests on a
choice of the model: log entry 37. -/
def Obligations.StripesRecovered : Prop :=
  ∀ (d : Vector Byte 4) (ok : Nat → Bool),
    let p := d[0] ^^^ d[1] ^^^ d[2] ^^^ d[3]
    let q := d[0] ^^^ gfMul 2 d[1] ^^^ gfMul 4 d[2] ^^^ gfMul 8 d[3]
    ((List.range 6).filter (fun m => !ok m)).length ≤ 2 →
    rebuildData ok (fun m => match m with | 0 => d[0].toNat | 1 => d[1].toNat | 2 => d[2].toNat | 3 => d[3].toNat | 4 => p.toNat | _ => q.toNat) =
      some [d[0].toNat, d[1].toNat, d[2].toNat, d[3].toNat]

/-! ## A region as a whole (spec/02_stitch_time.md R36 to R61; spec/14_system_state.md R312; spec/15_region_scheduler.md R342, R346, R348) -/

/-- DRAWSTRING_RELEASE at its stitch, while a core still issues: SSC is zero, arrivals are cleared, waiting cores issue or finish their count, and
every guard loses EN; once all cores have halted it only ends (R34, R39, R82, R254). HANG: when SSC reaches WDOG and a core has not halted, every
core has a HANG cause and a record with its issue state and SSC, once (R57). HOLD freezes a region at its stitch with every core and memory as it
was, but for a reply on its way to sy.r and for the fault records of causes up to then, which name that stitch, takes the state of the drawstring into
its record and tells the host (R43, R45, R304, R315). THAW of one whose causes
are all resolved and allow it, that no repeated fault ends and no vote keeps held, starts it again at the same stitch with an empty record, and with the
limits written meanwhile in force (R46, R47, R312, R356, R367). DEBUG_REQUEST adds its cause to a running or held
region (R42, R43); ACKNOWLEDGE resolves the causes that R312 names and no other. Where the condition does not hold, each does nothing. It rests on
choices of the model: log entries 24, 33 (a poisoned drawstring segment), 38, 40, 59 (an acknowledge before the hold). -/
def Obligations.SpansHoldsAndThaws : Prop :=
  ∀ (rg : Nat) (s : State),
    let r := s.rgn rg
    let u := s.onRg rg
    let others := fun (t : State) => ∀ n, n ≠ rg → t.rgn n = s.rgn n
    let told := s.out ++ [.msi 0 (mgetD s.imsic 0 (0, 0)).1 (mgetD s.imsic 0 (0, 0)).2 rg]
    let pend := if mgetD s.imsic 0 (0, 0) ∈ s.pend then s.pend else s.pend ++ [mgetD s.imsic 0 (0, 0)]
    (r.seg.relDue = some r.clk.sc → s.allHalted r r.clk.sc = false → ∀ m, mget r.badP 0 = some m → ∃ f : FaultInfo,
      exec (.drawstringRelease rg) s = .next ({ u with free := s.free + 1 }.raise rg (r.d.coreAt 0) r.clk.sc f) ∧ f.code = 0x50 ∧ f.cls = m.cls ∧ f.w7 = m.unit) ∧
    (r.seg.relDue = some r.clk.sc → s.allHalted r r.clk.sc = false → mget r.badP 0 = none → ∃ t, exec (.drawstringRelease rg) s = .next t ∧
      t = { u with cores := t.cores, regions := t.regions } ∧ others t ∧
      t.rgn rg = { r with seg := { r.seg with relDue := none }, clk := { r.clk with ssc := 0 }, hung := false } ∧
      (∀ id ∈ r.d.coreIds, t.core id = { s.core id with
          arr := none, sp := { (s.core id).sp with guard := (t.core id).sp.guard }
          issue := match (s.core id).issue with | .waiting n => if n ≤ r.clk.sc then .issuing else .idle n | i => i } ∧
        ∀ g : Fin 4, (t.core id).sp.guard.get g = (s.core id).sp.guard.get g &&& 0x7fffffffffffffff) ∧
      ∀ id, id ∉ r.d.coreIds → t.core id = s.core id) ∧
    (r.seg.relDue = some r.clk.sc → s.allHalted r r.clk.sc = true →
      exec (.drawstringRelease rg) s = .next (u.setRgn rg { r with seg := { r.seg with relDue := none } })) ∧
    (r.seg.relDue ≠ some r.clk.sc → exec (.drawstringRelease rg) s = .next u) ∧
    (r.d.wdog ≤ r.clk.ssc → r.hung = false → s.allHalted r r.clk.sc = false → ∃ t, exec (.hang rg) s = .next t ∧
      t = { u with cores := t.cores, regions := t.regions } ∧ others t ∧ t.rgn rg = { r with hung := true, seg := (t.rgn rg).seg } ∧
      (∀ id, t.core id = { s.core id with frec := (t.core id).frec, ovf := (t.core id).ovf }) ∧
      ∀ id ∈ r.d.coreIds, (∃ q ∈ (t.rgn rg).seg.causes, q.code = 0x60 ∧ q.core = id ∧ q.cs = if r.seg.held then r.seg.holdSc else r.clk.sc) ∧
        ((s.core id).frec.length < 4 → ∃ w ∈ (t.core id).frec, w[0].toNat % 256 = 0x60 ∧ w[5] = BitVec.ofNat 64 (match (s.core id).issue with
            | .issuing => 0 | .idle n => if n ≤ r.clk.sc then 0 else 1 | .waiting _ => 2 | .halted _ => 3 | .noRegion => 7) ∧
          w[6] = BitVec.ofNat 64 r.clk.ssc)) ∧
    (r.clk.ssc < r.d.wdog ∨ r.hung = true ∨ s.allHalted r r.clk.sc = true → exec (.hang rg) s = .next u) ∧
    (∀ h, r.seg.holdAt = some h → h ≤ r.clk.sc → r.seg.held = false → r.d.state = 2 → ∃ t, exec (.hold rg) s = .next t ∧
      t = { u with cores := t.cores, regions := t.regions, out := told, pend := pend, inputs := t.inputs, free := t.free } ∧ others t ∧
      t.rgn rg = { r with
        d := { r.d with state := 3 }, work := { next := r.work.next }
        pre := { r.pre with saving := r.pre.point.isSome || r.pre.forced }
        seg := { r.seg with held := true, holdAt := none, holdSc := r.clk.sc, await := s.awaited r
                            toRel := match r.seg.relDue with | some d => d - r.clk.sc | none => 0 } } ∧
      (∀ id ∈ r.d.coreIds, t.core id = { s.core id with
        lands := (s.core id).lands.map (fun x => match x.tgt with | .latch .sy _ _ _ => { x with due := r.clk.sc } | _ => x)
        frec := (s.core id).frec.map (fun f => if f[1].toNat ≤ r.clk.sc then f.set 2 (BitVec.ofNat 64 r.clk.sc) else f) }) ∧
      ∀ id, id ∉ r.d.coreIds → t.core id = s.core id) ∧
    (r.seg.holdAt = none ∨ (∃ h, r.seg.holdAt = some h ∧ r.clk.sc < h) ∨ r.seg.held = true ∨ r.d.state ≠ 2 → exec (.hold rg) s = .next u) ∧
    (r.d.state = 3 → r.seg.held = true → r.kept = false → r.ending = none →
      (∀ q ∈ r.seg.causes, q.resolved = true ∧ q.code ∈ [0x70, 0x71, 0x72, 0x73, 0x30, 0x40, 0x41, 0x42, 0x43]) → ∃ t, exec (.thaw rg) s = .next t ∧
      t = { u with cores := t.cores, regions := t.regions } ∧ others t ∧
      t.rgn rg = { r with
        d := { r.d with state := 2, wdog := r.d.wdogNew.getD r.d.wdog, plimit := r.d.plimNew.getD r.d.plimit, wdogNew := none, plimNew := none }
        seg := { mask := r.seg.mask, relDue := r.seg.relDue }, work := { next := s.pcyc + 1 } } ∧
      (∀ id ∈ r.d.coreIds, t.core id = { s.core id with frec := [], ovf := false }) ∧ ∀ id, id ∉ r.d.coreIds → t.core id = s.core id) ∧
    (r.d.state ≠ 3 ∨ r.seg.held = false ∨ r.kept = true ∨ r.ending.isSome = true ∨ (∃ q ∈ r.seg.causes, q.resolved = false) →
      exec (.thaw rg) s = .next u) ∧
    (r.d.state = 2 → r.seg.held = false → exec (.debugRequest rg) s = .next (u.setRgn rg { r with seg := { r.seg with
      causes := r.seg.causes ++ [{ code := 0x73, cs := r.clk.sc }], holdAt := some (r.holdFor r.clk.sc) } })) ∧
    (r.d.state = 3 → r.seg.held = true → ∃ t, exec (.debugRequest rg) s = .next t ∧
      t = { u with regions := t.regions, out := told, pend := pend, inputs := t.inputs, free := t.free } ∧ others t ∧
      t.rgn rg = { r with seg := { r.seg with causes := r.seg.causes ++ [{ code := 0x73, cs := r.seg.holdSc }] } }) ∧
    (r.d.state ≠ 2 → r.d.state ≠ 3 → exec (.debugRequest rg) s = .next u) ∧
    (r.d.state = 3 → ∃ t, exec (.acknowledge rg) s = .next t ∧
      t = { u with
              regions := t.regions, out := if r.seg.held then told else s.out, pend := if r.seg.held then pend else s.pend
              inputs := t.inputs, free := t.free } ∧ others t ∧
      t.rgn rg = { r with seg := { r.seg with causes := r.seg.causes.map (fun q =>
        if q.code = 0x73 ∨ q.code = 0x30 ∨ q.code = 0x40 ∨ q.code = 0x41 ∨ q.code = 0x42 then { q with resolved := true } else q) } }) ∧
    (r.d.state ≠ 3 → exec (.acknowledge rg) s = .next u)

/-- PREEMPT_COMMAND, PREEMPT_ARM and PREEMPT_FORCE (R58, R61, R345): a request is registered with its stitch, arms the region Dr later, and forces a
PREEMPT cause at q + PREEMPT_LIMIT when no pre-emption point came. PHINT_MISMATCH and CD_STITCH_MISMATCH: the check of a stitch is dropped, and
raises its fault at the origin core when some core that had not halted did not issue the operation (R59, R258, R261, R357). It rests on choices of
the model: log entries 15, 25. -/
def Obligations.PreemptionAndChecks : Prop :=
  ∀ (rg : Nat) (s : State),
    let r := s.rgn rg
    let u := s.onRg rg
    (rg < 512 → r.d.state = 2 ∨ r.d.state = 3 → r.d.save ≠ 0 → r.pre.req = none →
      ∃ t, exec (.preemptCommand rg) s = .next t ∧ t.cores = s.cores ∧ t.rgn rg = { r with pre := { req := some r.clk.sc } }) ∧
    (∀ q, r.pre.req = some q → q + r.d.dr ≤ r.clk.sc → r.pre.armed = false → r.pre.forced = false →
      exec (.preemptArm rg) s = .next (u.setRgn rg { r with pre := { r.pre with armed := true } })) ∧
    (∀ q, r.pre.req = some q → q + r.d.plimit ≤ r.clk.sc → r.pre.point = none → r.pre.forced = false →
      exec (.preemptForce rg) s = .next ((u.setRgn rg { r with pre := { r.pre with forced := true, armed := false } }).addCause rg r.clk.sc 0x72)) ∧
    (∀ t k, r.sameAt .phint t = some k →
      let u1 := u.setRgn rg (r.dropSame t false)
      exec (.phintMismatch rg t) s = .next (if u.unmatched r k then
        u1.raiseOrigin rg r.clk.sc { code := 0x14, dst := Op.dst (.sy .phint), baddr := k.first.baddr, w5 := t, w6 := k.cores.length } else u1)) ∧
    (∀ (opens : Bool) t k, r.sameAt (if opens then .cdopen else .cdclose) t = some k → r.sameAt (if opens then .cdclose else .cdopen) t = none →
      exec (.cdStitchMismatch rg t) s = .next ((if u.unmatched r k then
        u.raiseOrigin rg r.clk.sc { code := 0x10, dst := Op.dst (.sy (if opens then .cdopen else .cdclose)), baddr := k.first.baddr, w5 := 5, w7 := r.clk.cdlev }
        else u).modRgn rg (fun r => r.dropSame t true)))

/-- REGION_RELEASE in cycle RC: every core issues, with no record, from stitch 0; a message that comes late is reported, and sent again for 2^16
cycles on, 2^20 in band 3 (R33, R342, R385). REGION_END of a region in which nothing remains and no domain is open: it is ending, and its schedule is
to end (R36, R351). PREEMPT_SAVE: the region is Saved, its cores are zero but for their fault records, and it keeps them (R346); RESTORE, where the
save area can be read: of this device's, they come back with the text of the image, and the region runs at its hold stitch, with the limits written
meanwhile in force; of another revision's, the region is unpicked with reason 6 (R312, R347, R348, R357, R358). What it reads of far memory is repaired
first (R374, as O43 says). At release and restore, the ease is what the repairs made meanwhile require, where that is a factor of 8 or less (R53,
R369). It rests on choices of the model: log entries 14, 25, 40, 56 (the least RC is sent again). -/
def Obligations.RegionLife : Prop :=
  ∀ (rg : Nat) (s : State),
    let r := s.rgn rg
    (r.d.state = 1 → r.pl.relCyc = s.pcyc → r.pl.relCyc ≠ 0 → s.loadK r ≤ 8 → ∃ t, exec (.regionRelease rg) s = .next t ∧
      t = { s.onRg rg with cores := t.cores, regions := t.regions } ∧ (∀ n, n ≠ rg → t.rgn n = s.rgn n) ∧
      t.rgn rg = { r with d := { r.d with state := 2, ease := max r.d.ease (s.loadK r - 1) }, clk := {}, work := { next := s.pcyc } } ∧
      (∀ id ∈ r.d.coreIds, t.core id = { s.core id with issue := .issuing, frec := [], ovf := false }) ∧ (∀ id, id ∉ r.d.coreIds → t.core id = s.core id)) ∧
    (r.d.state = 1 → r.pl.relCyc ≠ 0 → r.pl.relCyc < s.pcyc →
      let cyc := s.pcyc + (if r.d.band = 3 then 2 ^ 20 else 2 ^ 16)
      ∃ t, exec (.regionRelease rg) s = .next t ∧ t = { s.onRg rg with regions := t.regions, out := s.out ++ [.report 1 rg], inputs := t.inputs } ∧
        (∀ n, n ≠ rg → t.rgn n = s.rgn n) ∧ t.rgn rg = { r with pl := { r.pl with relCyc := cyc } } ∧ (cyc, Instr.regionRelease rg) ∈ t.inputs) ∧
    (r.d.state ≠ 1 → exec (.regionRelease rg) s = .next (s.onRg rg)) ∧
    (r.d.state = 2 → s.quiet r r.clk.sc = true → r.doms = [] → r.closing = none → ∃ t, exec (.regionEnd rg) s = .next t ∧
      (t.rgn rg).d = { r.d with state := 5 } ∧ (∀ id, t.core id = s.core id) ∧ ∃ q ∈ t.inputs, q.2 = .scheduleEnd rg) ∧
    (r.d.state = 3 → r.pre.saving = true → (∀ q ∈ r.seg.causes, q.code = 0x72) →
      s.ownsAll r.d.part (fpaDie r.d.save) (fpaOfs r.d.save) r.d.saveLen = true → ∃ t k, exec (.preemptSave rg) s = .next t ∧
      (t.rgn rg).d = { r.d with state := 4 } ∧ (t.rgn rg).saved = some k ∧ k.clk = r.clk ∧
      k.cores = (List.range r.d.ncore).map (fun c => (r.d.coreAt c, (s.core (r.d.coreAt c)).saved_ (s.saveEntry r c) r.clk.sc)) ∧
      ∀ id ∈ r.d.coreIds, t.core id = { frec := (t.core id).frec, ovf := (t.core id).ovf }) ∧
    (∀ k z, z = s.healed (s.restoreReads rg) → r.d.state = 4 → r.saved = some k → (k.cores.map Prod.fst).Nodup → z.saveLost r.d = none →
      (z.saveMine r.d = false → ∃ t, exec (.restore rg) s = .next t ∧ (t.rgn rg).dying = true ∧ (t.rgn rg).pl.reason = 6) ∧
      (z.saveMine r.d = true → z.loadK r ≤ 8 → ∃ t, exec (.restore rg) s = .next t ∧
      (t.rgn rg).d = { r.d with state := 2, ease := max r.d.ease (z.loadK r - 1), wdog := r.d.wdogNew.getD r.d.wdog, plimit := r.d.plimNew.getD r.d.plimit
                                wdogNew := none, plimNew := none } ∧ (t.rgn rg).clk = r.clk ∧ (t.rgn rg).saved = none ∧
      ∀ q ∈ k.cores, t.core q.1 = { q.2 with imem := z.textOf rg (r.d.relOf q.1), frec := (t.core q.1).frec, ovf := (t.core q.1).ovf }))

/-- ROLLBACK of a held region to a usable domain, open or closing, whose record demands no unpick and waits for no verdict, that no vote keeps held, and
whose ease may be what the repairs require (R53, R262, R355, R356, R364, R367):
its clock is that of the open stitch, it runs, inner domains and their journal entries are gone, its plans are Resident, and each core is its
snapshot with the registers that its entry does not name zero, and with its scratchpad as it is where the domain made no copy. JOURNAL_APPLY of a
clean journal whose H-dies are in service: its entries are in far memory in their order, and none is left; a journal that could not be applied waits
(R362, R378). It rests on a choice of the model: log entry 13. -/
def Obligations.RollbackAndJournal : Prop :=
  ∀ (rg : Nat) (s : State),
    let r := s.rgn rg
    let u := s.onRg rg
    (∀ d cl z, z = (s.healed (s.rollReads rg)).onRg rg → r.d.state = 3 → r.ending = none → r.kept = false → (∀ q ∈ r.seg.causes, q.voted = false) →
      z.loadK r ≤ 8 → z.target r = some (d, cl) → d.rolled ≠ 7 → (d.cores.map Prod.fst).Nodup → ∃ t, exec (.rollback rg) s = .next t ∧
      (t.rgn rg).d.state = 2 ∧ (t.rgn rg).clk = { d.clk with cdlev := d.level + 1 } ∧ (t.rgn rg).seg = { mask := r.seg.mask, relDue := d.relDue } ∧
      (t.rgn rg).plans = r.plans.map Plan.abort ∧
      (t.rgn rg).journal = (if cl then [] else r.journal.filter (fun e => decide (e.lvl < d.level))) ∧
      ((t.rgn rg).doms.map (fun q => (q.level, q.rolled))) =
        (if cl then [] else (r.doms.filter (fun q => decide (q.level < d.level))).map (fun q => (q.level, q.rolled))) ++ [(d.level, d.rolled + 1)] ∧
      (cl = true → (t.rgn rg).apply = [] ∧ (t.rgn rg).closing = none ∧ (t.rgn rg).poisoned = false) ∧
      ∀ q ∈ d.cores, (t.core q.1).regs = q.2.regs.live (mgetD d.names (r.d.relOf q.1) 0) ∧ (t.core q.1).pc = q.2.pc ∧ (t.core q.1).lands = q.2.lands ∧
        (d.copies = [] → (t.core q.1).scr = (s.core q.1).scr)) ∧
    (r.closing.isSome = true → r.applyAt = r.clk.sc → r.poisoned = false → u.applyLost r = [] → s.nearP = [] →
      let w := (r.apply.flatMap (fun e => e.beats.map (fun b => (b.2.2.2, u.readArea r.d.jrnBanks (e.pos + 32 + 2048 * (b.1 / 2)) b.2.2.1)))).foldl
        (fun v q => v.writeRuns q.1 q.2) u
      ∃ t, exec (.journalApply rg) s = .next t ∧ (t.rgn rg).apply = [] ∧ (t.rgn rg).closing = none ∧
        (∀ id, t.core id = { s.core id with frec := (t.core id).frec, ovf := (t.core id).ovf }) ∧ t.near = s.near ∧
        t.far = w.far ∧ t.farP = w.farP ∧ t.hdies = w.hdies) ∧
    (r.closing = none ∨ r.applyAt ≠ r.clk.sc ∨ r.poisoned = true → exec (.journalApply rg) s = .next u)

/-! ## Translation, requests and plans (spec/14_system_state.md R321 to R324; spec/10_transfer_sync_ops.md R266; spec/11_puzil.md; spec/15_region_scheduler.md R343) -/

/-- TRANSLATION_WALK of a page that a core misses (R321 to R323): the single bad stripes among the table entries that the walk reads are repaired in
place (R374), which changes far memory and its marks alone, and nothing where every byte is in order; an invalid page is reported to the region manager;
a page that a write may not use adds PROTECTION with the cause stitch of the miss, and its frame joins those denied to the write, which asks for it no
more; else the core's cache holds the page and no transfer of it misses
the page. XLATE_DECLINE adds TRANSLATION; XLATE_RETRY has the pages walked again that are not forbidden. TCINV_ALL and TCINV_VPN empty the cache of the physical core, or drop the entries whose page holds the address, and nothing else
of any core (R324). SYSREPLY_WRITE lands the value on sy.r at the hold stitch and resolves the SYSREQ cause of a core that has one with its record,
and is refused to another (R266, R314). It rests on choices of the model: log entries 8, 59 (one reply for every request of a core). -/
def Obligations.TranslationAndRequests : Prop :=
  (∀ (s : State) (l : List (Nat × Nat)), s.healed l = { s with far := (s.healed l).far, farP := (s.healed l).farP } ∧ (s.farP = [] → s.healed l = s)) ∧
  (∀ (rg c va : Nat) (s0 : State),
      let s := s0.healed (s0.walkReads rg c va)
      let r := s.rgn rg
      let id := r.d.coreAt c
      let k := s.core id
      (k.asking va = [] → exec (.translationWalk rg c va) s0 = .next s0) ∧
      (k.asking va ≠ [] → s.walk r.d.part va = none → ∃ t, exec (.translationWalk rg c va) s0 = .next t ∧ t = { s with out := s.out ++ [.report 2 va] }) ∧
      (∀ l y, y ∈ k.asking va → y.farWrite = true → leafW l = false → s.walk r.d.part va = some l →
        ∃ t, exec (.translationWalk rg c va) s0 = .next t ∧
          (∃ q ∈ (t.rgn rg).seg.causes, q.code = 0x22 ∧ q.core = id ∧ q.tag = y.trig ∧ q.cs = mgetD y.missed (va / 2 ^ 16) y.trig) ∧
          ((k.xf.xfers.map Xfer.trig).Nodup → (∀ x ∈ (t.core id).asking va, x.trig ≠ y.trig) ∧
            ∃ x, (t.core id).xfer y.trig = some x ∧ x.denied.contains (va / 2 ^ 16) = true)) ∧
      (∀ l, k.missing va ≠ [] → (k.xf.xfers.map Xfer.trig).Nodup → s.walk r.d.part va = some l →
        (∀ x ∈ k.missing va, x.denied.contains (va / 2 ^ 16) = false ∧ (x.farWrite = true → leafW l = true)) →
        va < 2 ^ 52 → k.tceLook va = none → ∃ t, exec (.translationWalk rg c va) s0 = .next t ∧ (t.core id).tceLook va = some l ∧ (t.core id).missing va = [] ∧
          (t.core id).regs = k.regs ∧ t.near = s.near ∧ t.far = s.far)) ∧
  (∀ (rg c : Nat) (s : State),
      let r := s.rgn rg
      let id := r.d.coreAt c
      let k := s.core id
      (∀ n q, s.xlateCause rg id n = some q → ∃ t, exec (.xlateDecline rg c n) s = .next t ∧
        ∃ q' ∈ (t.rgn rg).seg.causes, q'.code = 0x23 ∧ q'.core = id ∧ q'.cs = q.cs) ∧
      (∀ n q f m, s.xlateCause rg id n = some q → k.xfer q.tag = some f → m ∈ f.missed → m.2 = q.cs →
        f.denied.contains m.1 = false → ∃ t, exec (.xlateRetry rg c n) s = .next t ∧
        t.cores = s.cores ∧ t.regions = s.regions ∧ ∃ e ∈ t.inputs, e.2 = .translationWalk rg c (m.1 * 2 ^ 16))) ∧
  (∀ (pk id : Nat) (s : State), s.onPhys pk = some id →
      let k := s.core id
      (∃ t, exec (.tcinvAll pk) s = .next t ∧ t.core id = { k with tce := k.tce.filter (fun p => !tceValid p.2) } ∧ ∀ c, c ≠ id → t.core c = s.core c) ∧
      (∀ vpn, ∃ t, exec (.tcinvVpn pk vpn) s = .next t ∧
        t.core id = { k with tce := k.tce.filter (fun p => !(tceValid p.2 && tceMatch p.2 (vpn % 2 ^ 36 * 2 ^ 16))) } ∧ ∀ c, c ≠ id → t.core c = s.core c) ∧
      (∀ rg q (v : BitVec 64), s.regionOf id = some rg → (s.rgn rg).sysreq id = some q → k.sysRec = true →
        let r := s.rgn rg
        ∃ t, exec (.sysreplyWrite pk v) s = .next t ∧ t.core id = { k with lands := k.lands ++
            [{ due := if r.seg.held then r.seg.holdSc else r.holdFor q.cs, trig := q.cs, tgt := .latch .sy false (v.setWidth 2048) 0 }] } ∧
          (t.rgn rg).seg.causes = r.seg.causes.map (fun q => if q.code = 0x43 ∧ q.core = id then { q with resolved := true } else q)) ∧
      (∀ rg (v : BitVec 64), s.regionOf id = some rg → (s.rgn rg).sysreq id = none ∨ k.sysRec = false →
        exec (.sysreplyWrite pk v) s = .next s))

/-- HOST_TRIGGER and PLAN_RELEASE (R274, R275): a trigger of a resident plan that is neither armed nor running arms it for Dr later, and another is
dropped with a message; at its release stitch an armed plan runs, with the FLAGS of every engine clear. PLAN_SETUP and PLAN_FREE (R273, R340, R343): a
plan that passes its checks is resident under a handle of 32 bits that is not zero and no other plan's, once its region is not running, and the region's
ease is what its links then need (R53, R384); a refused one changes nothing of the region, and one that needs a factor above 8 is refused; what is read
of far memory is repaired first (R374, as O43 says); a plan that is neither armed nor running is freed, and L is then that of the links still used (R30).
ENGINE_WRITE of a rank whose only due write goes to near memory: its bytes are there, and no other byte
changes; and a token that is due sets its NOTIFY bit and joins its flags to VSTAT (R80, R282, R292). It rests on choices of the model: log entries
8, 28, 38 (a trigger of a saved region is accepted). -/
def Obligations.PlansAndEngines : Prop :=
  (∀ (rg h : Nat) (s : State),
      let r := s.rgn rg
      (∀ p, r.d.state = 2 ∨ r.d.state = 3 ∨ r.d.state = 4 → r.plan h = some p →
        (p.rel = none → p.fin ≤ r.clk.sc → ∃ t, exec (.hostTrigger rg h) s = .next t ∧ ∃ q, (t.rgn rg).plan h = some q ∧ q.rel = some (r.clk.sc + r.d.dr) ∧
          q.run = p.run ∧ q.ranks = p.ranks) ∧
        (p.rel.isSome = true → ∃ t, exec (.hostTrigger rg h) s = .next t ∧ t.regions = s.regions ∧
          t.out = s.out ++ [.msi 2 (mgetD s.imsic 2 (0, 0)).1 (mgetD s.imsic 2 (0, 0)).2 h])) ∧
      (∀ p, r.plan h = some p → p.rel = some r.clk.sc → p.run = false → ∃ t, exec (.planRelease rg h) s = .next t ∧
        ∃ q, (t.rgn rg).plan h = some q ∧ q.run = true ∧ q.rel = p.rel ∧ q.ranks.map Rank.tokens = p.ranks.map Rank.tokens ∧
        q.ranks.map Rank.engine = p.ranks.map Rank.engine ∧ ∀ k ∈ q.ranks, k.fl = 0 ∧ k.writes = [] ∧ k.inbox = [] ∧ k.void = [] ∧ k.bad = []) ∧
      (∀ fpa t n z, z = s.healed (s.planReads rg fpa) → rg < 512 → z.planTry rg fpa 256 = .inr (t, n) →
        (t.loadK (t.rgn rg) ≤ 8 → r.d.state = 1 ∨ r.d.state = 3 ∨ r.d.state = 4 →
          exec (.planSetup rg fpa) s =
            .next ((t.modRgn rg (fun q => { q with d := { q.d with ease := max q.d.ease (t.loadK (t.rgn rg) - 1) } })).finish 1 0 n) ∧
          (s.plansAll.length < 2 ^ 31 → 0 < n ∧ n < 2 ^ 32 ∧ ∀ q ∈ s.plansAll, q.2.handle ≠ n) ∧
          (t.rgn rg).plans.map Plan.handle = r.plans.map Plan.handle ++ [n] ∧ ∃ q ∈ (t.rgn rg).plans, q.handle = n ∧ q.rel = none ∧ q.fin = 0) ∧
        (t.loadK (t.rgn rg) ≤ 8 → r.d.state = 2 → exec (.planSetup rg fpa) s = .next (z.laterOnce (.planSetup rg fpa))) ∧
        (8 < t.loadK (t.rgn rg) → 1 ≤ r.d.state → r.d.state ≤ 4 → exec (.planSetup rg fpa) s = .next (z.finish 1 9 0))) ∧
      (∀ fpa e z, z = s.healed (s.planReads rg fpa) → rg < 512 → 1 ≤ r.d.state → r.d.state ≤ 4 → z.planTry rg fpa 256 = .inl e →
        exec (.planSetup rg fpa) s = .next (z.finish 1 e 0)) ∧
      (∀ fpa, rg < 512 → r.d.state = 0 ∨ 4 < r.d.state → exec (.planSetup rg fpa) s = .next (s.finish 1 15 0)) ∧
      (∀ fpa, 512 ≤ rg → exec (.planSetup rg fpa) s = .next (s.finish 1 14 0)) ∧
      (∀ p, s.plansAll.find? (fun q => q.2.handle == h) = some (rg, p) →
        (p.rel.isSome = true → exec (.planFree h) s = .next (s.finish 2 15 0)) ∧
        (p.rel = none → ∃ t, exec (.planFree h) s = .next t ∧
          let left := r.plans.filter (fun q => q.handle != h)
          (t.rgn rg).plans.map Plan.handle = left.map Plan.handle ∧ (t.rgn rg).clk = r.clk ∧ (r.d.band ≠ 3 → (t.rgn rg) = { r with plans := left }) ∧
            (r.d.band = 3 → (t.rgn rg).d = { r.d with lfab := s.lfabNow { r with plans := left } })))) ∧
  (∀ (rg h n : Nat) (s : State) (p : Plan),
      let r := s.rgn rg
      r.plan h = some p →
      (∀ w : PWrite, (p.rank n).tokens.filter (fun w => w.due == r.clk.sc) = [] → (p.rank n).writes.filter (fun w => w.due == r.clk.sc) = [w] →
        w.window = none → (p.rank n).engine < 96 → r.work.stage ≠ 2 → Memory.wf s.near = true →
        ∃ t, exec (.engineWrite rg h n) s = .next t ∧ ∀ a, Memory.read t.near a =
          if w.addr ≤ a ∧ a < w.addr + w.chunk.bytes.length then w.chunk.bytes.getD (a - w.addr) 0 else Memory.read s.near a) ∧
      (∀ w : PToken, (p.rank n).tokens.filter (fun w => w.due == r.clk.sc) = [w] → r.work.stage = 2 →
        let id := r.d.coreAt w.core
        ∃ t, exec (.engineWrite rg h n) s = .next t ∧ t.near = s.near ∧ t.core id = { s.core id with sp := { (s.core id).sp with
          notify := (s.core id).sp.notify ||| (1 <<< (w.tok % 64)), vstat := (s.core id).sp.vstat ||| w.fl } }))

/-- Every Puzil op (R282 to R293, R297, R403). On an engine that no other plan contests: nop, loop and end do nothing; send puts its chunk, with its
marks, on its link; recv writes the chunk of its paired send; copy, reduce, rqadd, expmax, binacc, binout and digest leave the write of their result
after their latency, and a copy between equal formats carries marks on; dcmp and wait find nothing wrong, or raise their fault; signal sends its
token to a core of this package. A poisoned chunk that an ALU op reads is DATA_UNCORRECTABLE of its origin, and so is a poisoned op word, or engine.
Where two plans meet on an engine, the first op raises SLIP and the others nothing, and none executes; a voided op does nothing; an op that does not
execute, or that faults, leaves a write of no bytes, for the slot of its destination stays claimed (R118). What another package sends is a free value, less
what a group whose tag failed has spoilt of it (R389); of a result for a core of another package the flags alone are kept (R270, R284). The elements of an integer reduce are sums modulo 2^w, maxima or minima, and set
no flag (R285). It rests on choices of the model: log entries 24 (word 6 of a binacc refusal), 27, 30, 33 (where a mark lies). -/
def Obligations.PuzilOps : Prop :=
  (∀ (F : IFmt) (fmt red j : Nat) (a b : List Byte), Fmt.ofCode fmt = some (.i F) → red < 3 → j < 8 * a.length / F.width →
    let x := BitVec.ofNat F.width (elemOf a F.width j)
    let y := BitVec.ofNat F.width (elemOf b F.width j)
    let less := fun (p q : BitVec F.width) => if F.signed then p.slt q else p.ult q
    (pzReduce fmt red a b).2 = 0 ∧ BitVec.ofNat F.width (elemOf (pzReduce fmt red a b).1 F.width j) =
      if red = 0 then x + y else if red = 1 then if less x y then y else x else if less y x then y else x) ∧
  (∀ (e : Instr) (wd : Nat) (s : State), e.wf = true → encode e = some (128, wd) → s.focus.eng = none → exec e s = .next s) ∧
  (∀ (s : State) (h k w i : Nat) (p : Plan), s.focus.eng = some (h, k, w, i) → s.fr.plan h = some p →
    let rk := p.rank k
    let t := s.sc
    let get := fun x n => s.pzRead s.fr.d (rk.place x) n
    let chunk := fun (x : BitVec 22) (len : BitVec 8) => get x.toNat (32 * (len.toNat + 1))
    let putFrom := fun (src : Option Nat) (s : State) (d : BitVec 22) due (c : Chunk) fl (step : BitVec 8) =>
      let keep := fun (win : Option Nat) a (c : Chunk) src => s.modFr (fun r => r.modRank p.handle k (fun q =>
        { q with writes := q.writes ++ [{ due := due, window := win, addr := a, chunk := c, fl := fl, step := step.toNat, src := src }] }))
      match rk.place d.toNat with
      | .near a | .mv a => keep none a c src
      | .win core a => keep (some core) a c src
      | .none => match rk.awayPeer d.toNat with | some core => keep (some core) (32 * (d.toNat % 2 ^ 16)) {} none | none => s
    let put := putFrom none
    let from_ := fun (a : BitVec 22) => if rk.awayWin a.toNat then some (bitsOf a.toNat 19 16) else none
    let lat := fun (a d : BitVec 22) => if a.getLsbD 21 then rk.lam a.toNat else if d.getLsbD 21 then rk.lam d.toNat else 2
    let idle := fun (e : Instr) (s : State) => match e with
      | .puzilCopy st _ a d _ _ _ _ _ => putFrom (from_ a) s d (t + lat a d) {} 0 st
      | .puzilReduce st _ _ _ d _ _ _ _ => put s d (t + 4) {} 0 st
      | .puzilExpmax st _ _ _ d _ _ _ => put s d (t + 4) {} 0 st
      | .puzilDigest st _ _ d _ _ => put s d (t + 4) {} 0 st
      | .puzilRqadd st _ _ _ d _ _ _ _ _ _ => put s d (t + 6) {} 0 st
      | .puzilBinacc st _ _ _ d _ _ _ => put s d (t + 6) {} 0 st
      | .puzilBinout st _ _ d _ _ => put s d (t + 6) {} 0 st
      | _ => s
    let slip := fun (step : Nat) expected => s.pzFault { code := 0x10, w5 := 7, w6 := expected, w7 := p.handle + step * 2 ^ 32 }
    let faults := fun (e : Instr) (c : Chunk) => ∀ q m l, c.marks = (q, m) :: l →
      ∃ f : FaultInfo, exec e s = .next (idle e (s.pzFault f)) ∧ f.code = 0x50 ∧ f.cls = m.cls ∧ f.w7 = m.unit
    let first := fun (e : Instr) (a b : Chunk) => faults e a ∧ (a.marks = [] → faults e b)
    let meet := (s.opsDue s.fr s.sc).filter (fun q => match s.fr.plan q.1 with | some p' => (p'.rank q.2.1).engine == rk.engine | none => false)
    (s.pzRival p rk = true → ∀ (e : Instr) (wd : Nat), e.wf = true → encode e = some (128, wd) →
      exec e s = .next (idle e (if meet.head? = some (p.handle, k, w, i) then slip (wd / 2 ^ 116 % 2 ^ 8) (wd / 2 ^ 92 % 2 ^ 24) else s))) ∧
    (s.pzRival p rk = false → rk.void.contains (w, i) = true → ∀ (e : Instr) (wd : Nat), e.wf = true → encode e = some (128, wd) →
      exec e s = .next (idle e s)) ∧
    (s.pzRival p rk = false → rk.void.contains (w, i) = false → ∀ a m, s.opMark rk w = some (a, m) → ∀ (e : Instr) (wd : Nat), e.wf = true →
      encode e = some (128, wd) → ∃ f : FaultInfo, exec e s = .next (idle e (s.pzFault f)) ∧ f.code = 0x50 ∧ f.cls = m.cls ∧ f.w7 = m.unit) ∧
    (s.pzRival p rk = false → rk.void.contains (w, i) = false → s.opMark rk w = none →
      (∀ st o, exec (.puzilNop st o) s = .next s ∧ exec (.puzilEnd st o) s = .next s) ∧
      (∀ st o b c os ast aw, exec (.puzilLoop st o b c os ast aw) s = .next s) ∧
      (∀ st o a len adv l, exec (.puzilSend st o a len adv l) s = .next (match mget rk.links l.toNat with
        | some n => s.modFr (fun r => r.modRank p.handle n.peer (fun q =>
          { q with inbox := q.inbox ++ [{ due := t + n.lam, window := none, addr := k, chunk := chunk a len, step := st.toNat }] }))
        | none => s)) ∧
      (∀ st o d (len : BitVec 8) adv l n, mget rk.links l.toNat = some n → n.away = true → exec (.puzilRecv st o d len adv l) s =
        .next (put { s with free := s.free + 1 } d t (groupChunk (mget rk.bad t) (s.awayChunk (32 * (len.toNat + 1)))) 0 st)) ∧
      (∀ st o d len adv l n, mget rk.links l.toNat = some n → n.away = false →
        exec (.puzilRecv st o d len adv l) s = .next (match rk.inbox.find? (fun w => w.due == t && w.addr == n.peer) with
          | some m => put (s.modFr (fun r => r.modRank p.handle k (fun q =>
              { q with inbox := q.inbox.filter (fun v => !(v.due == t && v.addr == n.peer)) }))) d t m.chunk 0 st
          | none => s)) ∧
      (∀ st o d len adv l, mget rk.links l.toNat = none → exec (.puzilRecv st o d len adv l) s = .next s) ∧
      (∀ st o a d len adv sf df sat,
        let due := t + lat a d
        let r := pzCopy sf.toNat df.toNat sat (chunk a len).bytes
        let v := pzCopy sf.toNat df.toNat sat (s.awayChunk (32 * (len.toNat + 1))).bytes
        (rk.awayWin a.toNat = true → exec (.puzilCopy st o a d len adv sf df sat) s =
          .next (putFrom (from_ a) { s with free := s.free + 1 } d due ⟨v.1, []⟩ v.2 st)) ∧
        (rk.awayWin a.toNat = false → sf = df ∨ (chunk a len).marks = [] → exec (.puzilCopy st o a d len adv sf df sat) s = .next (put s d due ⟨r.1, (chunk a len).marks⟩ r.2 st)) ∧
        (rk.awayWin a.toNat = false → sf ≠ df → faults (.puzilCopy st o a d len adv sf df sat) (chunk a len))) ∧
      (∀ st o a b d len adv fmt red,
        let e := Instr.puzilReduce st o a b d len adv fmt red
        let r := pzReduce fmt.toNat red.toNat (chunk a len).bytes (chunk b len).bytes
        ((chunk a len).marks = [] → (chunk b len).marks = [] → exec e s = .next (put s d (t + 4) ⟨r.1, []⟩ r.2 st)) ∧
        first e (chunk a len) (chunk b len)) ∧
      (∀ st o a b d len adv qf ty sat nb,
        let e := Instr.puzilRqadd st o a b d len adv qf ty sat nb
        let r := pzRqadd qf.toNat ty.toNat nb.toNat sat (chunk a len).bytes (chunk b len).bytes
        ((chunk a len).marks = [] → (chunk b len).marks = [] → exec e s = .next (put s d (t + 6) ⟨r.1, []⟩ r.2 st)) ∧
        first e (chunk a len) (chunk b len)) ∧
      (∀ st o a b d (len : BitVec 8) adv bst,
        let n := len.toNat + 1
        let y := get b.toNat (if bst then 32 * n else 4 * n)
        let m := Instr.puzilExpmax st o a b d len adv bst
        let c := Instr.puzilBinacc st o a b d len adv bst
        ((chunk a len).marks = [] → y.marks = [] →
          exec m s = .next (put s d (t + 4) ⟨pzExpmax n bst (chunk a len).bytes y.bytes, []⟩ 0 st) ∧
          exec c s = .next (match pzBinacc n bst (chunk a len).bytes y.bytes with
            | .inl c => put s d (t + 6) ⟨c, []⟩ 0 st
            | .inr j => idle c (slip st.toNat j))) ∧
        first m (chunk a len) y ∧ first c (chunk a len) y) ∧
      (∀ st o a d len adv,
        let r := pzBinout (len.toNat + 1) (chunk a len).bytes
        ((chunk a len).marks = [] →
          exec (.puzilBinout st o a d len adv) s = .next (put s d (t + 6) ⟨r.1, []⟩ r.2 st) ∧
          exec (.puzilDigest st o a d len adv) s = .next (put s d (t + 4) ⟨toBytes 8 (crc64 (chunk a len).bytes), []⟩ 0 st)) ∧
        faults (.puzilBinout st o a d len adv) (chunk a len) ∧ faults (.puzilDigest st o a d len adv) (chunk a len)) ∧
      (∀ st o a b adv peer,
        let x := get a.toNat 8
        let y := get b.toNat 8
        (x.marks = [] → y.marks = [] → exec (.puzilDcmp st o a b adv peer) s = .next (if x.bytes = y.bytes then s
          else s.pzFault { code := 0x52, w5 := p.handle + st.toNat * 2 ^ 32 + k * 2 ^ 40 + peer.toNat * 2 ^ 48, w6 := ofBytes x.bytes, w7 := ofBytes y.bytes })) ∧
        first (.puzilDcmp st o a b adv peer) x y) ∧
      (∀ st o l tok n, mget rk.links l.toNat = some n →
        let fl := rk.writes.foldl (fun f w => if w.due = t then f ||| w.fl else f) rk.fl
        exec (.puzilSignal st o l tok) s = .next (if n.away then s else s.modFr (fun r => r.modRank p.handle k (fun q =>
          { q with tokens := q.tokens ++ [{ due := t + n.lam, core := n.peer, tok := tok.toNat, fl := if p.degen then 0 else fl }] })))) ∧
      (∀ st o l tok, mget rk.links l.toNat = none → exec (.puzilSignal st o l tok) s = .next s) ∧
      (∀ st (o : BitVec 24), exec (.puzilWait st o) s = .next (if rk.writes.any (fun w => decide (t < w.due)) || rk.tokens.any (fun w => decide (t < w.due))
        then slip st.toNat o.toNat else s))))

/-! ## The region scheduler (spec/15_region_scheduler.md) -/

/-- LAUNCH_RING_PRODUCE: a ring takes a new PROD when no more than 2^LOG records would be outstanding, and keeps its old one otherwise (R332).
LAUNCH_RECORD_ACCEPT: the record at CONS of the highest ring that holds one is accepted as a waiting or runnable schedule, with the counts that have
come in for it, or is refused and leaves the schedule table as it was; CONS advances by one (R328, R329, R331, R332). What is read of far memory is
repaired first (R374, as O43 says). It rests on choices of the
model: log entries 8, 29, 35. -/
def Obligations.LaunchRings : Prop :=
  ∀ (k p : Nat) (s : State), k < 8 →
    let q := s.ring k
    let n := (p % 2 ^ 32 + 2 ^ 32 - q.cons) % 2 ^ 32
    let room := if 4 ≤ q.log ∧ q.log ≤ 16 then 2 ^ q.log else 0
    (n ≤ room → ∃ t, exec (.launchRingProduce k p) s = .next t ∧ t.ring k = { q with prod := p % 2 ^ 32 } ∧ (∀ j < 8, j ≠ k → t.ring j = s.ring j) ∧
      t.sched.slots = s.sched.slots ∧ ∃ e ∈ t.inputs, e.2 = .launchRecordAccept) ∧
    (room < n → exec (.launchRingProduce k p) s = .next s) ∧
    (s.boot.ready = true → q.on = true → q.due q.prod ≠ 0 → (∀ j, k < j → j < 8 → (s.ring j).due (s.ring j).prod = 0) →
      let z := s.healed s.recordReads
      let w := (List.range 8).map (fun i => z.fpaWord (q.base + 64 * (q.cons % 2 ^ q.log) + 8 * i))
      let sid := recField w 0 63 52
      let m := (s.slot sid).count + Int.ofNat (recField w 0 51 40)
      (z.recordCode k w = none → ∃ t, exec .launchRecordAccept s = .next t ∧ t.ring k = { q with cons := (q.cons + 1) % 2 ^ 32 } ∧
        (t.slot sid).state = (if m = 0 then 2 else 1) ∧ (t.slot sid).count = m ∧ (t.slot sid).words = w ∧ (t.slot sid).since = s.pcyc ∧
        (t.slot sid).prio = min (recField w 0 39 37) (((s.part (recField w 0 36 33) 4).extractLsb' 16 8).toNat) ∧
        (∀ j, j ≠ sid → t.slot j = s.slot j) ∧ t.cores = s.cores ∧ t.regions = s.regions ∧ t.far = z.far) ∧
      (∀ c, z.recordCode k w = some c → ∃ t, exec .launchRecordAccept s = .next t ∧ t.ring k = { q with cons := (q.cons + 1) % 2 ^ 32 } ∧
        t.sched.slots = s.sched.slots ∧ t.near = s.near))

/-- PLACEMENT of a runnable schedule that is alone in the order and fits: the first origin of its scan takes it, under the lowest free region
number, with the descriptor of R312, and it is to be loaded; a multi-package one takes the first at which the schedulers of the other packages can place
its other parts, a free value for each origin, and stays Runnable where there is none (R385); of a saved one, its own region is to be restored (R335 to
R337, R348). What is read of far memory is repaired first (R374, as O43 says). REGION_LOAD
(R334, R341, R342, R385): an image that is not well formed, a grant that does not fit, or routes that clash free all that the schedule took, with a
completion word of code 4, 6 or 5, in that order; routes that need an ease above 8, or a link that is not there, make it Runnable again, to be
placed elsewhere (R53); else the release cycle lies 2^16 cycles ahead, 2^20 for a multi-package region, and every core has registers of zero, no work
in flight and its entry point. It rests on choices of the model: log entries 8, 30, 31, 35, 36, 56. -/
def Obligations.PlacementAndLoad : Prop :=
  (∀ (sid : Nat) (s0 s : State), s = s0.healed s0.placeReads → s.order = [sid] →
      let x := s.slot sid
      (∀ n l, x.state = 2 → s.quotaFull x.part = false → s.freeNumber = some n → x.origins.filter (s.fitsAt sid x (s.imgGrant x.image) []) = l → l ≠ [] →
        (x.kind = 2 → (∀ i, i < l.length → Config.partsFit (s.free + i) = false) → exec .placement s0 = .next { s with free := s.free + l.length }) ∧
        ∀ j o, l[j]? = some o → (if x.kind = 2 then Config.partsFit (s.free + j) = true ∧ ∀ i, i < j → Config.partsFit (s.free + i) = false else j = 0) →
          ∃ t, exec .placement s0 = .next t ∧ t.slot sid = { x with state := 3, rg := n } ∧ t.cores = s.cores ∧ (∀ m, m ≠ n → t.rgn m = s.rgn m) ∧
          (t.rgn n).pl = { sid := sid, image := x.image } ∧ (t.rgn n).clk = {} ∧ (t.rgn n).plans = [] ∧
          (let d := (t.rgn n).d
           d.state = 1 ∧ d.part = x.part ∧ d.x0 = o.1 ∧ d.y0 = o.2 ∧ d.wid = x.wid ∧ d.hgt = x.hgt ∧ d.save = x.save ∧ 2 ^ 20 ≤ d.wdog ∧ d.wdog ≤ 2 ^ 48 ∧
             2 ^ 10 ≤ d.plimit ∧ d.plimit ≤ 2 ^ 32) ∧
          ∃ e ∈ t.inputs, e.2 = .regionLoad n) ∧
      (x.state = 4 → (rectDies (s.rgn x.rg).d.x0 (s.rgn x.rg).d.y0 x.wid x.hgt).any (fun k => s.maps.excluded.contains k) = false →
        s.fitsAt sid x [] [] ((s.rgn x.rg).d.x0, (s.rgn x.rg).d.y0) = true →
        ∃ t, exec .placement s0 = .next t ∧ t.slot sid = { x with state := 3 } ∧ t.regions = s.regions ∧ t.cores = s.cores ∧ ∃ e ∈ t.inputs, e.2 = .restore x.rg)) ∧
  (∀ (rg : Nat) (s0 s : State), s = s0.healed (s0.loadReads rg) →
      let r := s.rgn rg
      let x := s.slot r.pl.sid
      let h := s.imgHead r.pl.image
      let refused := fun (t : State) => t.rgn rg = {} ∧ (∀ id ∈ r.d.coreIds, t.core id = { frec := (t.core id).frec, ovf := (t.core id).ovf }) ∧
        (∀ n, n ≠ rg → t.rgn n = { s.rgn n with seg := (t.rgn n).seg }) ∧ (∀ j, j ≠ r.pl.sid → t.slot j = s.slot j) ∧ ∃ e ∈ t.inputs, e.2 = .placement
      r.d.state = 1 → r.pl.relCyc = 0 →
      (∀ c, (s.imageOk x h = false ∧ c = 4 ∨ s.imageOk x h = true ∧ s.grantOk x r.d h = false ∧ c = 6 ∨
          s.imageOk x h = true ∧ s.grantOk x r.d h = true ∧ (s.imgRoutes r.d r.pl.image h = none ∧ c = 4 ∨
            ∃ rs, s.imgRoutes r.d r.pl.image h = some rs ∧ routesBad r.d rs = true ∧ c = 5)) →
        ∃ t, exec (.regionLoad rg) s0 = .next t ∧ refused t ∧ (t.slot r.pl.sid).state = 0 ∧ (t.slot r.pl.sid).count = x.count ∧
          (∀ u, s.writeFpa x.done (toBytes 8 (2 ^ 63 + c * 2 ^ 48 + r.pl.sid * 2 ^ 36)) 6 s.dieIdent = some u → t.far = u.far)) ∧
      (∀ rs, s.imageOk x h = true → s.grantOk x r.d h = true → s.imgRoutes r.d r.pl.image h = some rs → routesBad r.d rs = false → h.nplan = 0 →
        let d1 : Descr := { r.d with pbanks := h.pbanks, jcap := h.jcap, lfab := if r.d.band = 3 then s.lfabOf (s.imgUses r.d r.pl.image h) else r.d.lfab }
        let d2 : Descr := { d1 with parea := d1.prsvBanks.headD 0, jbase := d1.jrnBanks.headD 0 }
        let mask := ofBytes ((s.readFpa (r.pl.image + h.mask) (ceilDiv r.d.ncore 8)).getD []) % 2 ^ r.d.ncore
        let r1 : Region := { r with
          d := d2, seg := { mask := mask }
          routes := (rs.foldl (fun m q => mset m q.1 q.2) []).map (fun q => (q.1, { q.2 with phys := q.2.hops s.maps d2 })) }
        (s.loadK r1 ≤ 8 → s.linksOk r1 = true → r.d.x0 + r.d.wid ≤ 96 →
          let cyc := s.pcyc + (if r.d.band = 3 then 2 ^ 20 else 2 ^ 16)
          ∃ t, exec (.regionLoad rg) s0 = .next t ∧ t.rgn rg = { r1 with d := { d2 with ease := s.loadK r1 - 1 }, pl := { r.pl with relCyc := cyc } } ∧
            (cyc, Instr.regionRelease rg) ∈ t.inputs ∧ (∀ n, n ≠ rg → t.rgn n = { s.rgn n with seg := (t.rgn n).seg }) ∧
            ∀ c, c < r.d.ncore →
              let k := t.core (r.d.coreAt c)
              k.regs = {} ∧ k.lands = [] ∧ k.banks = [] ∧ k.tiles = [] ∧ k.tags = [] ∧ k.issue = .noRegion ∧ k.xf = {} ∧ k.mx = {} ∧
              k.sp = { ltinfo := k.sp.ltinfo, td := k.sp.td } ∧ k.pc = (s.imgCore r.pl.image h.cores c).entry / 2 * 2) ∧
        (8 < s.loadK r1 ∨ s.linksOk r1 = false → ∃ t, exec (.regionLoad rg) s0 = .next t ∧ refused t ∧
          t.slot r.pl.sid = { x with state := 2, rg := 0 } ∧ t.far = s.far)))

/-- SCHEDULE_END: an ending region is free and its cores are zero, its slot is free, its completion word has STATUS 0, and every schedule of its DLIST
counts one fewer (R330, R331, R351); what it reads of far memory is repaired first (R374, as O43 says).
UNPICK, UNPICK_SWEEP_END, PURGE_COMPLETE and PURGE_TIMEOUT: a region of any other state is killed at once, with a KILLED record at its origin core, its
cores freed, its routes off and its plans gone, and a saved one, which has no cores, keeps its state and gets no record; its sweep ends 4096 k cycles
later; the purge frees the region and its slot, with STATUS 0x20 in the completion word, or makes a schedule runnable again that a takeover unpicked or
that is to be placed again; one with units still set 2^20 cycles after the sweep is reported, with those units (R330, R349, R350, R353, R354, R357). The
unpick command completes with status 0 (R333). It rests on choices of the model: log entries 8, 33, 35. -/
def Obligations.RegionsEnd : Prop :=
  ∀ (rg reason : Nat) (s : State),
    let r := s.rgn rg
    let x := s.slot r.pl.sid
    let written := fun (z t : State) (status : Nat) => ∀ v, z.writeFpa x.done (toBytes 8 (2 ^ 63 + status * 2 ^ 48 + r.pl.sid * 2 ^ 36)) 6 z.dieIdent = some v →
      t.far = v.far ∧ .msi 1 (mgetD s.imsic 1 (0, 0)).1 (mgetD s.imsic 1 (0, 0)).2 r.pl.sid ∈ t.out
    (r.d.state = 5 → ∃ t u, exec (.scheduleEnd rg) s = .next t ∧ t = (((s.healed (s.endReads rg)).dependants x).foldl State.decrement u).laterOnce .placement ∧
      written (s.healed (s.endReads rg)) t 0 ∧
      u.slot r.pl.sid = { count := x.count } ∧ (∀ j, j ≠ r.pl.sid → u.slot j = s.slot j) ∧ t.rgn rg = { seg := (t.rgn rg).seg } ∧
      (∀ id ∈ r.d.coreIds, t.core id = { frec := (t.core id).frec, ovf := (t.core id).ovf }) ∧ (∀ n, n ≠ rg → t.rgn n = { s.rgn n with seg := (t.rgn n).seg })) ∧
    (∀ sid, -4096 < (s.slot sid).count → (s.slot sid).count ≠ 1 → s.decrement sid = s.setSlot sid { s.slot sid with count := (s.slot sid).count - 1 }) ∧
    (∀ sid, (s.slot sid).count = 1 → (s.slot sid).state = 1 → ∃ t, t = s.decrement sid ∧ (t.slot sid).state = 2 ∧ (t.slot sid).count = 0 ∧ (t.slot sid).since = s.pcyc ∧
      ∃ e ∈ t.inputs, e.2 = .placement) ∧
    (r.d.state ≠ 0 → r.dying = false → ∃ t, exec (.unpick rg reason) s = .next t ∧ (t.rgn rg).d = { r.d with state := if r.d.state = 4 then 4 else 6 } ∧
      (t.rgn rg).dying = true ∧ (t.rgn rg).plans = [] ∧ (t.rgn rg).saved = none ∧
      (t.rgn rg).doms = [] ∧ (t.rgn rg).journal = [] ∧ (∀ q ∈ (t.rgn rg).routes, q.2.on = false) ∧ (t.rgn rg).pl.reason = reason ∧
      (let o := r.d.coreAt 0
       r.d.state ≠ 4 → ((s.core o).frec.length < 4 → ∃ w : FRec, (t.core o).frec = (s.core o).frec ++ [w] ∧ w[0] = BitVec.ofNat 64 (2 ^ 63 + rg * 2 ^ 16 + 0x61) ∧
           w[1] = BitVec.ofNat 64 (if r.seg.held then r.seg.holdSc else r.clk.sc) ∧ w[5] = BitVec.ofNat 64 reason ∧ (reason = 1 → w[6] = 0 ∧ w[7] = 0)) ∧
         (4 ≤ (s.core o).frec.length → (t.core o).ovf = true)) ∧
      (reason = 1 → rg < 512 → s.sched.win.busy = true → s.sched.win.op = 3 → t.sched.win.busy = false ∧ t.sched.win.status = 0) ∧
      (r.d.state ≠ 4 → ∀ id ∈ r.d.coreIds, t.core id = { frec := (t.core id).frec, ovf := (t.core id).ovf }) ∧ (r.d.state = 4 → t.cores = s.cores) ∧
      (∀ n, n ≠ rg → t.rgn n = s.rgn n) ∧ (s.pcyc + 4096 * (r.d.ease + 1), Instr.unpickSweepEnd rg) ∈ t.inputs ∧ t.near = s.near ∧ t.far = s.far) ∧
    (r.d.state = 0 ∨ r.dying = true → reason ≠ 1 → exec (.unpick rg reason) s = .next s) ∧
    (r.dying = true → r.pl.purge = 0 → ∃ t, exec (.unpickSweepEnd rg) s = .next t ∧
      t.rgn rg = { r with pl := { r.pl with purge := 1, purgeAt := s.pcyc, units := (s.purgeUnits r).filter (Config.unitLate s.free) } } ∧ (∀ n, n ≠ rg → t.rgn n = s.rgn n) ∧
      (∃ e ∈ t.inputs, e.2 = .purgeComplete rg) ∧ (s.pcyc + 2 ^ 20, Instr.purgeTimeout rg) ∈ t.inputs) ∧
    (r.dying = true → r.pl.purge ≠ 0 → ∃ t, exec (.purgeComplete rg) s = .next t ∧ t.rgn rg = {} ∧
      (∀ n, n ≠ rg → t.rgn n = { s.rgn n with seg := (t.rgn n).seg }) ∧
      (∃ e ∈ t.inputs, e.2 = .placement) ∧
      if r.pl.reason = 0 ∨ r.pl.again = true then t.slot r.pl.sid = { x with state := 2, rg := 0 } ∧ t.far = s.far
      else (t.slot r.pl.sid).state = 0 ∧ written s t 0x20) ∧
    (r.pl.units = [] → exec (.purgeTimeout rg) s = .next s) ∧
    (r.dying = true → r.pl.purge = 1 → r.pl.units ≠ [] → r.pl.purgeAt + 2 ^ 20 ≤ s.pcyc → ∃ t, exec (.purgeTimeout rg) s = .next t ∧
      t.rgn rg = { r with pl := { r.pl with purge := 2 } } ∧ (∀ n, n ≠ rg → t.rgn n = s.rgn n) ∧ t.cores = s.cores ∧
      t.out = s.out ++ [.report 4 rg] ++ r.pl.units.map (fun u => .report 10 u))

/-- CANCEL frees a slot that waits or is runnable, with its count, and refuses one that is placed or saved (R333). HEARTBEAT: the active scheduler
is seen alive, and will be again 2^20 cycles later; SCHEDULER_TAKEOVER: after 2^24 cycles without one the standby is active, the other control die
is out of service, a command in progress ends with status 17, and regions that are still loading are unpicked to be placed again (R352, R353). It
rests on choices of the model: log entries 4, 8, 35. -/
def Obligations.CancelAndStandby : Prop :=
  (∀ (sid : Nat) (s : State),
    let x := s.slot sid
    let busy := s.sched.win.busy = true ∧ s.sched.win.op = 5
    (sid < 4096 → x.state = 1 ∨ x.state = 2 → ∃ t, exec (.cancel sid) s = .next t ∧ t.slot sid = {} ∧ (∀ j, j ≠ sid → t.slot j = s.slot j) ∧
      (busy → t.sched.win.busy = false ∧ t.sched.win.status = 0) ∧ t.regions = s.regions) ∧
    (sid < 4096 → 3 ≤ x.state → ∃ t, exec (.cancel sid) s = .next t ∧ t.sched.slots = s.sched.slots ∧ (busy → t.sched.win.busy = false ∧ t.sched.win.status = 15)) ∧
    (x.state = 0 → ∃ t, exec (.cancel sid) s = .next t ∧ t.sched.slots = s.sched.slots ∧ (busy → t.sched.win.busy = false ∧ t.sched.win.status = 14))) ∧
  (∀ s : State,
    let q := s.sched
    ((if q.east then q.eastUp else q.westUp) = true → ∃ t, exec .heartbeat s = .next t ∧ t.sched = { q with beat := s.pcyc } ∧
      (s.pcyc + 2 ^ 20, Instr.heartbeat) ∈ t.inputs ∧ t.regions = s.regions) ∧
    ((if q.east then q.westUp else q.eastUp) = true → q.beat + 2 ^ 24 ≤ s.pcyc → ∃ t, exec .schedulerTakeover s = .next t ∧ t.sched.east = !q.east ∧
      (if q.east then t.sched.eastUp = false ∧ t.sched.westUp = q.westUp else t.sched.westUp = false ∧ t.sched.eastUp = q.eastUp) ∧
      (q.win.busy = true → t.sched.win.busy = false ∧ t.sched.win.status = 17) ∧ t.sched.slots = q.slots ∧
      ((∀ e ∈ s.regions, e.2.d.state ≠ 1) → t.regions = s.regions) ∧
      (∀ n, (∀ e ∈ s.regions, e.1 = n → e.2.d.state ≠ 1) → t.rgn n = s.rgn n) ∧
      (∀ n r, mget s.regions n = some r → r.d.state = 1 → (t.rgn n).d.state = 6 ∧ (t.rgn n).pl.reason = 0) ∧ ∃ e ∈ t.inputs, e.2 = .placement))

/-! ## Diagnosis and repair (spec/16_faults_recovery.md R358, R366 to R374, R378, R402; spec/01_panel.md R18 to R25) -/

/-- DIAGNOSIS, NEIGHBOUR_VOTE, NEIGHBOUR_VOTE_TIMEOUT, OPERATOR_VERDICT (R366, R367): verdicts that agree are acted on, and so is the one that a
neighbour or the operator chooses; others are put to the vote of a neighbour, with an end 2^30 cycles later; a vote for neither, or none in time,
keeps every region that a verdict names held and leaves the choice to the operator, whose choice of neither unpicks the regions named with reason 7.
Each ACTION of a verdict becomes its event. It rests on choices of the model: log entries 8, 33, 38, 54. -/
def Obligations.Verdicts : Prop :=
  ∀ s : State,
    let left := fun (t : State) => t.boot = { s.boot with vote := 2 } ∧ t.near = s.near ∧ t.cores = s.cores ∧
      .msi 3 (mgetD s.imsic 3 (0, 0)).1 (mgetD s.imsic 3 (0, 0)).2 0 ∈ t.out ∧
      (∀ n, t.rgn n = { s.rgn n with kept := (t.rgn n).kept, seg := (t.rgn n).seg }) ∧
      ∀ n ∈ s.votedRegions, (t.rgn n).kept = true ∧ ((s.rgn n).d.state = 2 ∨ (s.rgn n).d.state = 3 →
        ∃ q ∈ (t.rgn n).seg.causes, q.code = 0x73 ∧ q.cls = 1 ∧ q.resolved = false)
    (∀ v, s.boot.west.serving = true → s.boot.east.serving = true → exec (.diagnosis (some v) (some v)) s =
      .next (({ s with boot := { s.boot with west := { s.boot.west with verdict := some v }, east := { s.boot.east with verdict := some v } } }).act v)) ∧
    (∀ v, let c := bitsOf v.unit 35 32
      let r := bitsOf v.unit 31 29
      let t := s.act v
      let asks := fun (i : Instr) => ∃ e ∈ t.inputs, e.2 = i
      (v.action = 1 → asks (.coreRetire c r (bitsOf v.unit 24 22) (bitsOf v.unit 28 25))) ∧
      (∀ x y, v.action = 2 → s.dieAt c r = some (x, y) → asks (.channelSwap (4 * (x + 12 * y) + v.unit % 4) (!v.regions.isEmpty))) ∧
      (∀ br, v.action = 3 → s.bridgeOf v.unit = some br → asks (.bridgeHalfRemap br (v.unit.testBit 27))) ∧
      (v.action = 4 → asks (.columnDarn c)) ∧
      (∀ x y, v.action = 5 → s.dieAt c r = some (x, y) → ∃ p, asks (.remoteDarn x y p)) ∧
      (∀ h, v.action = 6 → s.hLogical (bitsOf v.unit 35 31) = some h →
        (s.hGone h = true ∨ v.regions ≠ [] → asks (.hDieDarn h)) ∧ (s.hGone h = false → v.regions = [] → asks (.hDieDarnInService h))) ∧
      (v.action = 7 → asks (.controlDieLoss (if v.unit.testBit 35 then .east else .west))) ∧
      (1 ≤ v.action → t.boot.acting = some v ∧ t.boot.vote = 0 ∧ t.boot.west.verdict = none ∧ t.boot.east.verdict = none ∧ t.cores = s.cores ∧
        (∀ n, t.rgn n = { s.rgn n with kept := (t.rgn n).kept }) ∧ ∀ n, (s.rgn n).d.state ≠ 0 → (s.rgn n).d.state ≠ 6 → (t.rgn n).kept = false)) ∧
    (∀ a b, a ≠ b → s.boot.west.serving = true → s.boot.east.serving = true → ∃ t, exec (.diagnosis a b) s = .next t ∧
      t = { s with boot := t.boot, inputs := t.inputs } ∧ t.boot.vote = 1 ∧ t.boot.voteAt = s.pcyc ∧ t.boot.neighbour = s.neighbourFor ∧
      t.boot.west.verdict = a ∧ t.boot.east.verdict = b ∧ (s.pcyc + 2 ^ 30, Instr.neighbourVoteTimeout) ∈ t.inputs) ∧
    ((∀ b, s.boot.vote = 1 → s.boot.neighbour.isSome = true → s.pcyc ≤ s.boot.voteAt + 2 ^ 30 →
        (∀ v, s.ballotFor b = some v → exec (.neighbourVote b) s = .next (s.act v)) ∧
        (s.ballotFor b = none → ∃ t, exec (.neighbourVote b) s = .next t ∧ left t)) ∧
      (∀ b, s.boot.vote ≠ 1 ∨ s.boot.neighbour = none ∨ s.boot.voteAt + 2 ^ 30 < s.pcyc → exec (.neighbourVote b) s = .next s) ∧
      (s.boot.vote = 1 → s.boot.voteAt + 2 ^ 30 ≤ s.pcyc → ∃ t, exec .neighbourVoteTimeout s = .next t ∧ left t) ∧
      (s.boot.vote ≠ 1 ∨ s.pcyc < s.boot.voteAt + 2 ^ 30 → exec .neighbourVoteTimeout s = .next s)) ∧
    (∀ b v, s.boot.vote = 2 → s.ballotFor b = some v → exec (.operatorVerdict b) s = .next (s.act v)) ∧
    (∀ b, s.boot.vote = 2 → s.ballotFor b = none → ∃ t, exec (.operatorVerdict b) s = .next t ∧ t.boot.vote = 0 ∧ t.boot.west.verdict = none ∧
      t.boot.east.verdict = none ∧ ∀ n ∈ s.votedRegions, (s.rgn n).d.state ≠ 0 → (s.rgn n).dying = false → (t.rgn n).dying = true ∧ (t.rgn n).pl.reason = 7) ∧
    (∀ b, s.boot.vote ≠ 2 → exec (.operatorVerdict b) s = .next s)

/-- CORRECTABLE_ERROR is counted and reported; the sixteenth at one location within 2^32 cycles holds the regions that use the unit (R368 row 1).
SCRUB_POISON marks the place and raises DATA_UNCORRECTABLE of its class in the region (R358), but for an entry of a translation cache, which is then
invalid, and a stripe of a protected group, which the H-dies rebuild in place (R374). C_DIE_LOST, M_DIE_HALF_LOST, PACKAGE_LOSS and a lossy
CHANNEL_SWAP raise DATA_UNCORRECTABLE, of classes 15, 6 or 8, 11 and 9, in every running or held region that uses what is lost; a region that only
has a die in the lost die's column or east of it is held for the repair, and a failed channel is counted at the physical seam that serves the logical
one (R368 rows 4, 5, 6 and 9; R369). It rests on choices of the model: log entries 8, 11, 33 (where a poisoned value of a class lies; that a lost
C-die is of class 15), 34, 38 (the service processors' hold is a DEBUG cause of cls 1). -/
def Obligations.LossesDetected : Prop :=
  ∀ s : State,
    (∀ unit loc,
      let key := unit * 2 ^ 64 + loc
      let l := (mgetD s.corr key []).filter (fun c => decide (s.pcyc < c + 2 ^ 32)) ++ [s.pcyc]
      (l.length < 16 → exec (.correctableError unit loc) s = .next { s with out := s.out ++ [.report 8 unit], corr := mset s.corr key l }) ∧
      (16 ≤ l.length → ∃ t, exec (.correctableError unit loc) s = .next t ∧ mget t.corr key = some [] ∧ t.near = s.near ∧ t.maps = s.maps ∧
        ∀ n ∈ s.usersOf unit, (s.rgn n).d.state = 2 ∨ (s.rgn n).d.state = 3 →
          ∃ q ∈ (t.rgn n).seg.causes, q.code = 0x73 ∧ q.cls = 1 ∧ q.resolved = false)) ∧
    (∀ rg cls unit addr n id, tceAt cls unit addr = some n → s.onPhys (swaPhys unit) = some id →
      exec (.scrubPoison rg cls unit addr) s = .next (s.setCore id { s.core id with tce := mdel (s.core id).tce n })) ∧
    (∀ rg cls unit addr q, tceAt cls unit addr = none → s.scrubGroup cls unit addr = some q →
      ∃ t, exec (.scrubPoison rg cls unit addr) s = .next t ∧ t = { s with far := t.far, farP := t.farP }) ∧
    (∀ rg cls unit addr, (s.rgn rg).d.state = 2 ∨ (s.rgn rg).d.state = 3 → tceAt cls unit addr = none → s.scrubGroup cls unit addr = none →
      ∃ t, exec (.scrubPoison rg cls unit addr) s = .next t ∧
      (∃ q ∈ (t.rgn rg).seg.causes, q.code = 0x50 ∧ q.cls = cls) ∧ (cls = 6 ∨ cls = 7 ∨ cls = 14 → mget t.nearP addr = some ⟨cls, unit⟩) ∧
      (cls = 8 → mget t.mvP addr = some ⟨8, unit⟩) ∧ (∀ id, cls = 2 → s.onPhys (swaPhys unit) = some id → mget (t.core id).scrP addr = some ⟨2, unit⟩) ∧
      (∀ id, s.onPhys (swaPhys unit) = some id →
        (cls = 0 ∨ cls = 4 ∧ 0x1000 ≤ addr → mget (t.core id).regP addr = some ⟨cls, unit⟩) ∧
        (cls = 3 → mget (t.core id).regP (tileKey 0 addr) = some ⟨3, unit⟩) ∧ (cls = 1 → mget (t.core id).imemP addr = some ⟨1, unit⟩)) ∧
      (cls = 15 → mget (t.rgn rg).badP addr = some ⟨15, unit⟩) ∧ t.near = s.near ∧ t.mv = s.mv ∧ t.far = s.far) ∧
    (∀ n r, mget s.regions n = some r → r.d.state = 2 ∨ r.d.state = 3 →
      let faulted := fun (t : State) cls => ∃ q ∈ (t.rgn n).seg.causes, q.code = 0x50 ∧ q.cls = cls
      (∀ col row u v, s.dieAt col row = some (u, v) → 8 * u < r.d.x0 + r.d.wid → ∃ t, exec (.cDieLost col row) s = .next t ∧ t.near = s.near ∧
        if r.onDie u v then faulted t 15 else ∃ q ∈ (t.rgn n).seg.causes, q.code = 0x73 ∧ q.cls = 1 ∧ q.resolved = false) ∧
      (∀ br half, r.usesBridge s.maps br = true → ∃ t, exec (.mDieHalfLost br half) s = .next t ∧ t.near = s.near ∧ faulted t (if br < 96 then 6 else 8)) ∧
      (∀ pkg, 1 < r.d.npkg → pkg < r.d.npkg → r.d.pkg ≠ pkg → ∃ t, exec (.packageLoss pkg) s = .next t ∧ t.near = s.near ∧ faulted t 11) ∧
      (∀ seam, r.usesSeam seam = true → ∃ t, exec (.channelSwap seam true) s = .next t ∧ t.near = s.near ∧ faulted t 9 ∧
        t.maps = { s.maps with seams := mset s.maps.seams (s.maps.physSeam seam) (mgetD s.maps.seams (s.maps.physSeam seam) 0 + 1) }))

/-- While a region that a repair concerns runs, CORE_RETIRE, COLUMN_DARN, REMOTE_DARN to a spare of the clock domain, CHANNEL_SWAP of a degrading
channel, BRIDGE_HALF_REMAP and the last step of H_DIE_DARN_IN_SERVICE change no map: they ask the region to hold, and come again (R25, R368, R402). Once none of them runs, the repair is
made (R18 to R21, R368 to R370, R402): a core of a row is retired, and a second one of the row is a lost die; a column is darned where none is; a
die is excluded, its regions unpicked with reason 5, or is darned to a remote spare, and then those regions end so that no port of their partition's
key set brings to its package (R387); a seam channel is swapped; the banks of a lost bridge half read
zero, and every other byte of near memory stands where no plan is to be set up again. Holds that were made for the repair end. It rests on choices of
the model: log entries 8, 34, 38 (the hold for a repair is a DEBUG cause of cls 1, which it resolves), 54. -/
def Obligations.Repairs : Prop :=
  (∀ (s : State) (i : Instr) (users : List Nat) (n : Nat), s.repairUsers i = some users → n ∈ users → (s.rgn n).d.state = 2 →
      ∃ t, exec i s = .next t ∧ t.maps = s.maps ∧ t.near = s.near ∧ t.far = s.far ∧ (∃ e ∈ t.inputs, e.2 = i) ∧
        (∀ m, (t.rgn m).d = (s.rgn m).d ∧ (t.rgn m).clk = (s.rgn m).clk) ∧ (∀ c, t.core c = s.core c) ∧
        ∃ q ∈ (t.rgn n).seg.causes, q.code = 0x73 ∧ q.cls = 1 ∧ q.resolved = false) ∧
  (∀ s : State,
      let quiet := fun (i : Instr) => ∃ users, s.repairUsers i = some users ∧ ∀ n ∈ users, (s.rgn n).d.state ≠ 2
      let resolved := fun (i : Instr) (t : State) => ∀ users n, s.repairUsers i = some users → n ∈ users →
        ∀ q ∈ (t.rgn n).seg.causes, q.code = 0x73 → q.cls = 1 → q.resolved = true
      (∀ dc dr row col, quiet (.coreRetire dc dr row col) → ∃ t, exec (.coreRetire dc dr row col) s = .next t ∧
        t.maps = { s.maps with retired := mset s.maps.retired (64 * dc + 8 * dr + row) col } ∧ resolved (.coreRetire dc dr row col) t ∧ t.near = s.near) ∧
      (∀ dc dr row col f, mget s.maps.retired (64 * dc + 8 * dr + row) = some f →
        exec (.coreRetire dc dr row col) s = if f = col then .next s else exec (.cDieLost dc dr) s) ∧
      (∀ col, quiet (.columnDarn col) → ∃ t, exec (.columnDarn col) s = .next t ∧ resolved (.columnDarn col) t ∧
        t.maps = { s.maps with darned := some col, halves := s.maps.halves.filterMap (fun h => (shiftMv col h.1).map (fun e => (e, h.2))), banks := t.maps.banks }) ∧
      (∀ col, s.maps.darned.isSome = true → exec (.columnDarn col) s = .next s) ∧
      (∀ u v p, (∀ n ∈ s.regionsThat (fun r => r.onDie u v), (s.rgn n).d.state ≠ 2) → ∃ t, exec (.remoteDarn u v (some p)) s = .next t ∧
        if Config.inDomain p.1 = true then t.maps = { s.maps with remote := mset s.maps.remote (u + 12 * v) p } ∧
          ∀ n r, mget s.regions n = some r → r.d.state ≠ 0 → r.dying = false → r.onDie u v = true → s.remoteOk r.d.part p.1 = false →
            (t.rgn n).dying = true ∧ (t.rgn n).pl.reason = 5
        else u + 12 * v ∈ t.maps.excluded) ∧
      (∀ u v, ∃ t, exec (.remoteDarn u v none) s = .next t ∧ u + 12 * v ∈ t.maps.excluded ∧
        ∀ n r, mget s.regions n = some r → r.d.state ≠ 0 → r.dying = false → r.onDie u v = true → (t.rgn n).dying = true ∧ (t.rgn n).pl.reason = 5) ∧
      (∀ u v p, Config.inDomain p.1 = true ∨ exec (.remoteDarn u v (some p)) s = exec (.remoteDarn u v none) s) ∧
      (∀ seam, quiet (.channelSwap seam false) → ∃ t, exec (.channelSwap seam false) s = .next t ∧ resolved (.channelSwap seam false) t ∧
        t.maps = { s.maps with seams := mset s.maps.seams (s.maps.physSeam seam) (mgetD s.maps.seams (s.maps.physSeam seam) 0 + 1) }) ∧
      (∀ br half, br < 192 → quiet (.bridgeHalfRemap br half) → ∃ t, exec (.bridgeHalfRemap br half) s = .next t ∧ (br, half) ∈ t.maps.halves ∧
        t.far = s.far ∧ ∀ a,
          let b := (a - engBase br) / 2 ^ 20
          let local_ := fun (u : State) => if br < 96 then u.near else u.mv
          (engBase br ≤ a → b ∈ halfBanks half → Memory.read (local_ t) a = 0) ∧
          ((∀ q ∈ s.regions, ∀ p ∈ q.2.plans, ∀ k ∈ p.ranks, k.engine ≠ br) →
            (¬(engBase br ≤ a ∧ b ∈ halfBanks half) → Memory.read (local_ t) a = Memory.read (local_ s) a) ∧
            (if br < 96 then t.mv = s.mv else t.near = s.near))))

/-- H_DIE_LOSS: the die is lost, the fabric port of its identity goes down, a region held already with an access due there has a REBUILD cause (R43),
and no byte of the store changes. H_DIE_DARN of a lost die: once no region
with an access due there runs, a spare that is free takes its identity, empty, to be rebuilt, and until then it waits; with no spare left, the regions
that use the die are unpicked with reason 5. H_DIE_DARN_IN_SERVICE: the spare gets every byte of the die's owned blocks, and then its identity.
GROUP_REBUILD goes through the protected pages in order, writes what cannot be read of a group as the code of R372 gives it, and ends (R371, R374, R377, R378, R379, R402; R368 row 7).
CONTROL_DIE_LOSS: the control die and its service processor, with its session, are out of service, the standby takes over, and no region is held (R368
row 8); the held regions that the verdict acted on names are judged and roll back (R366), and no other region changes. It rests on choices of the
model: log entries 8, 34, 37, 38, 39. -/
def Obligations.HDiesAndControlDies : Prop :=
  ∀ s : State,
    (∀ phys, phys < 26 → phys ∉ s.hdies.lost → ∃ t, exec (.hDieLoss phys) s = .next t ∧ t.hdies.lost = s.hdies.lost ++ [phys] ∧
      mget t.hdies.copy phys = none ∧ t.near = s.near ∧ t.far = s.far ∧ t.maps = s.maps ∧
      (s.hLogical phys = none → t = { s with hdies := t.hdies }) ∧ ∀ h, s.hLogical phys = some h → (t.port h).up = false ∧
        ∀ n r, mget s.regions n = some r → r.d.state = 3 → s.dueAt r h = true →
          (t.rgn n).dying = true ∨ ∃ q ∈ (t.rgn n).seg.causes, q.code = 0x71 ∧ q.tag = phys) ∧
    (∀ h, s.hGone h = true →
      (∀ p, s.spareFor h = some p →
        ((∀ q ∈ s.regions, q.2.d.state = 2 → s.dueAt q.2 h = false ∧ ∀ c ∈ q.2.seg.causes, c.code = 0x71 → c.tag ≠ s.hPhys h) →
          ∃ t, exec (.hDieDarn h) s = .next t ∧ t.hPhys h = p ∧ mget t.hdies.rebuild p = some 0 ∧ p ∈ t.hdies.spares ∧
            p ∉ s.hdies.lost ∧ (∀ k, k / 2 ^ 37 = p → Memory.read t.far k = 0) ∧
            (∀ k, k / 2 ^ 37 ≠ p → Memory.wf s.far = true → Memory.read t.far k = Memory.read s.far k)) ∧
        ((∃ q ∈ s.regions, q.2.d.state = 2 ∧ s.dueAt q.2 h = true) → exec (.hDieDarn h) s = .next (s.laterOnce (.hDieDarn h)))) ∧
      (s.spareFor h = none → ∃ t, exec (.hDieDarn h) s = .next t ∧ t.maps = s.maps ∧ t.far = s.far ∧
        ∀ n r, mget s.regions n = some r → r.d.state ≠ 0 → r.dying = false → s.usesH r h = true → (t.rgn n).dying = true ∧ (t.rgn n).pl.reason = 5)) ∧
    (∀ h, s.hGone h = false → exec (.hDieDarn h) s = .next s) ∧
    (∀ h p, s.hGone h = false → mget s.hdies.copy (s.hPhys h) = none → s.spareFor h = some p → Memory.wf s.far = true →
      ∃ t, exec (.hDieDarnInService h) s = .next t ∧ t.maps = s.maps ∧ mget t.hdies.copy (s.hPhys h) = some p ∧
        (∀ o, o < 2 ^ 37 → Memory.read t.far (p * 2 ^ 37 + o) = if s.ownedAt (s.hPhys h * 2 ^ 37 + o) then Memory.read s.far (s.hPhys h * 2 ^ 37 + o) else 0) ∧
        (∀ k, k / 2 ^ 37 ≠ p → Memory.read t.far k = Memory.read s.far k)) ∧
    (∀ h p users, s.repairUsers (.hDieDarnInService h) = some users → (∀ n ∈ users, (s.rgn n).d.state ≠ 2) → mget s.hdies.copy (s.hPhys h) = some p →
      ∃ t, exec (.hDieDarnInService h) s = .next t ∧ t.hPhys h = p ∧ t.far = s.far ∧ t.hdies.copy = mdel s.hdies.copy (s.hPhys h)) ∧
    (∀ h k, mget s.hdies.rebuild (s.hPhys h) = some k → s.wanted (s.hPhys h) = [] →
      (∀ o l g, s.nextUnit h k = some (o, l, g) → ∃ t, exec (.groupRebuild h) s = .next t ∧ mget t.hdies.rebuild (s.hPhys h) = some (o + 512) ∧
        (∃ e ∈ t.inputs, e.2 = .groupRebuild h) ∧ t.near = s.near ∧ t.maps = s.maps ∧
        (Memory.wf s.far = true → s.hdies.copy = [] → ((List.range 256).flatMap (s.stripeKeys l g)).Nodup →
          (∀ e d0 d1 d2 d3, e < 256 → s.groupData l g e = some [d0, d1, d2, d3] → ∀ m, m < 6 →
            let key := (s.stripeKeys l g e).getD m 0
            Memory.read t.far key = if s.hOk key = true ∨ key / 2 ^ 37 ∈ s.hdies.lost then Memory.read s.far key
              else BitVec.ofNat 8 ([d0, d1, d2, d3, d0 ^^^ d1 ^^^ d2 ^^^ d3, d0 ^^^ gfN 2 d1 ^^^ gfN 4 d2 ^^^ gfN 8 d3].getD m 0)) ∧
          ∀ key, (∀ e, e < 256 → key ∉ s.stripeKeys l g e) → Memory.read t.far key = Memory.read s.far key)) ∧
      (s.nextUnit h k = none → ∃ t, exec (.groupRebuild h) s = .next t ∧ t.hdies.rebuild = mdel s.hdies.rebuild (s.hPhys h) ∧ t.far = s.far)) ∧
    (∀ side, let named := (s.boot.acting.elim [] Verdict.regions).filter (fun n => (s.rgn n).d.state == 3)
      ∃ t, exec (.controlDieLoss side) s = .next t ∧ t.boot.sp side = { s.boot.sp side with serving := false, verdict := none, session := false } ∧
      t.boot.sp (otherSide side) = s.boot.sp (otherSide side) ∧ t.boot.acting = none ∧
      (if side = .east then t.sched.eastUp = false ∧ t.sched.westUp = s.sched.westUp else t.sched.westUp = false ∧ t.sched.eastUp = s.sched.eastUp) ∧
      (s.sched.east = (side == .east) → ∃ e ∈ t.inputs, e.2 = .schedulerTakeover) ∧ t.cores = s.cores ∧
      (named = [] → t.regions = s.regions) ∧ (∀ n, n ∉ named → t.rgn n = s.rgn n) ∧
      ∀ n ∈ named, t.rgn n = (s.rgn n).judge ∧ ∃ e ∈ t.inputs, e.2 = .rollback n)

/-! ## The tack plane, the window, the host, links, boot and power (spec/14_system_state.md R306 to R312; spec/18_links_host_boot.md R379 to R400) -/

/-- TACK_PACKET at a router that holds one packet and has no link down (R309 to R311): it goes west first, then east, north or south, and turns no
more to the west once it has gone another way; it waits while the next router has no room for it; a packet that may not turn is dropped, a request
with an undeliverable reply; at its column and row a reply reaches the host, and a read is answered with the registers or refused. REGISTER_WRITE
(R307, R312, R316, R317, R333): a misaligned write, and one that its register refuses, changes nothing and is answered as refused; an argument of
the command window takes the value, WDOG and PLIMIT of a held region take it within their limits from the next thaw or restore on, and so does each word
of a partition entry that no region uses; of one in use only ROOT may change. Without the rail nothing is written (R398). It rests on choices of the
model: log entries 32, 33, 53. -/
def Obligations.TackAndWindow : Prop :=
  (∀ (rt port : Nat) (vn : Bool) (p : List W64) (s : State),
      let t := mgetD s.tack rt {}
      let h := p.getD 0 0
      let num := fun hi lo => bitsOf h.toNat hi lo
      let w := if num 63 60 < rt % 15 then 3 else if rt % 15 < num 63 60 then 1 else if rt / 15 < num 59 56 then 0 else if num 59 56 < rt / 15 then 2 else 4
      let turned := w = 3 ∧ h.getLsbD 38 = true
      t.bufs = [(vn, port, p)] → t.down = 0 →
      (∀ n, w ≠ 4 → ¬turned → tackNext rt w = some n →
        let b := (mgetD s.tack n {}).bufs
        let held := (mgetD s.tack n {}).held vn ((w + 2) % 4)
        (held < 12 → held + p.length ≤ 16 → ∃ u, exec (.tackPacket rt vn) s = .next u ∧ (mgetD u.tack rt {}).bufs = [] ∧
          (mgetD u.tack n {}).bufs = b ++ [(vn, (w + 2) % 4, (if w = 3 then h else h ||| (1 <<< 38)) :: p.drop 1)] ∧
          (∃ e ∈ u.inputs, e.2 = .tackPacket n vn) ∧ (∀ m, m ≠ rt → m ≠ n → mgetD u.tack m {} = mgetD s.tack m {}) ∧ u.regions = s.regions) ∧
        (12 ≤ held ∨ 16 < held + p.length → ∃ u, exec (.tackPacket rt vn) s = .next u ∧ u.tack = s.tack ∧ ∃ e ∈ u.inputs, e.2 = .tackPacket rt vn)) ∧
      (turned → h.getLsbD 39 = true ∨ vn = false → ∃ u, exec (.tackPacket rt vn) s = .next u ∧
        (mgetD u.tack rt {}).bufs = if h.getLsbD 39 then [] else [(true, 4, replyTo h (placeOf (rt % 15) (rt / 15) 0) 2 [])]) ∧
      (w = 4 → h.getLsbD 39 = true → ∃ u, exec (.tackPacket rt vn) s = .next u ∧ (mgetD u.tack rt {}).bufs = [] ∧ .reply (num 23 16) (p.drop 1) ∈ u.out ∧
        u.regions = s.regions ∧ u.cores = s.cores) ∧
      (w = 4 → vn = false → h.getLsbD 39 = false → num 34 32 = 0 → ∃ u, exec (.tackPacket rt vn) s = .next u ∧ u.regions = s.regions ∧ u.cores = s.cores ∧
        let a := (p.getD 1 0).toNat
        (mgetD u.tack rt {}).bufs = [(true, 4 + num 55 52, match s.winReads (a % 2 ^ 40) (bitsOf a 47 40) with
          | some d => replyTo h (placeOf (rt % 15) (rt / 15) (num 55 52)) 0 d
          | none => replyTo h (placeOf (rt % 15) (rt / 15) (num 55 52)) 1 [])])) ∧
  (∀ (s : State) (swa : Nat) (ws : List W64), s.boot.rail = false → exec (.registerWrite swa ws) s = .next s) ∧
  (∀ (s : State) (w : W64), s.boot.rail = true →
      (∀ swa ws, swa % 8 ≠ 0 → exec (.registerWrite swa ws) s = .next { s with out := s.out ++ [.reply 1 []] }) ∧
      (∀ k : Fin 4, ∃ t, exec (.registerWrite (0x301018 + 8 * k.val) [w]) s = .next t ∧ t = { s with sched := t.sched, out := s.out ++ [.reply 0 []] } ∧
        t.sched = { s.sched with win := { s.sched.win with args := t.sched.win.args } } ∧
        (∀ j : Fin 4, t.sched.win.args.get j = if j = k then w else s.sched.win.args.get j) ∧ t.winReg (0x301018 + 8 * k.val) = some w.toNat) ∧
      (∀ rg, rg < 512 →
        let r := s.rgn rg
        (r.d.state = 3 ∨ r.d.state = 4 →
          (∃ t, exec (.registerWrite (1024 * rg + 16) [w]) s = .next t ∧ t.rgn rg = { r with d := { r.d with wdogNew := some (min (2 ^ 48) (max (2 ^ 20) (w.toNat % 2 ^ 49))) } } ∧
            (∀ n, n ≠ rg → t.rgn n = s.rgn n) ∧ t.cores = s.cores) ∧
          (∃ t, exec (.registerWrite (1024 * rg + 24) [w]) s = .next t ∧
            t.rgn rg = { r with d := { r.d with plimNew := some (min (2 ^ 32) (max (2 ^ 10) (w.toNat % 2 ^ 33))) } } ∧ (∀ n, n ≠ rg → t.rgn n = s.rgn n) ∧ t.cores = s.cores)) ∧
        (r.d.state = 2 → ∀ k, k = 0 ∨ k = 2 ∨ k = 3 → exec (.registerWrite (1024 * rg + 8 * k) [w]) s = .next { s with out := s.out ++ [.reply 1 []] }) ∧
        (∀ k, 4 ≤ k → k ≤ 10 → exec (.registerWrite (1024 * rg + 8 * k) [w]) s = .next { s with out := s.out ++ [.reply 1 []] })) ∧
      (∀ p, p < 16 →
        (∃ t, exec (.registerWrite (0x100000 + 64 * p + 8) [w]) s = .next t ∧ (t.partRoot p) = w.toNat % 2 ^ 42 / 2 ^ 12 * 2 ^ 12 ∧ t.regions = s.regions) ∧
        (∀ k (mask : W64), (k, mask) ∈ [(0, 0x3f), (2, 0xffffffffffffffff), (3, 0xffffffff), (4, 0xffffff), (5, 0x1f)] →
          let used := s.regions.any (fun r => r.2.d.state != 0 && r.2.d.part == p)
          (used = true → exec (.registerWrite (0x100000 + 64 * p + 8 * k) [w]) s = .next { s with out := s.out ++ [.reply 1 []] }) ∧
          (used = false → ∃ t, exec (.registerWrite (0x100000 + 64 * p + 8 * k) [w]) s = .next t ∧ t.part p k = w &&& mask ∧ t.regions = s.regions ∧
            ∀ p' k', k' < 8 → p' ≠ p ∨ k' ≠ k → t.part p' k' = s.part p' k'))))

/-- HOST_ACCESS and DMA_WRITE (R391, R393, R371): a hart that is not up does nothing, and one that is up reads and writes near and far memory by host physical address; a byte that is
lost or poisoned, a write that cannot be made, and every address that the map does not give, raise an access fault; a read of far memory may heal a bad stripe and changes nothing
else (R374). A device's write goes where the IOMMU of its control die translates it, changes the bytes that it covers there, and no other byte, and is
reported where it is refused (R393); without the rail, or with the control die out of service, it does nothing. It rests on choices of the model: log entries
5 (the translation is a free value), 9, 39. -/
def Obligations.HostAccesses : Prop :=
  ∀ (s : State) (hart a n : Nat) (data : List Byte), 0 < n →
    let near := 0x20000000000
    let far := 0x100000000000
    let covers := fun a => a + n ≤ 2 ^ 33 ∧ nearIn a = true ∧ nearIn (a + n - 1) = true
    let inNear := covers a
    let inFar := a + n ≤ 2 ^ 42 ∧ fpaDie (a + n - 1) < 24
    (s.hartUp hart = true →
     (inNear → (firstPoison s.nearP a n = none → exec (.hostAccess hart false (near + a) n data) s =
        .next { s with out := s.out ++ [.reply 0 (wordsOf (Memory.readN s.near a n))] }) ∧
      ((firstPoison s.nearP a n).isSome = true → ∃ t, exec (.hostAccess hart false (near + a) n data) s = .next t ∧ t.near = s.near ∧ .reply 2 [] ∈ t.out) ∧
      (Memory.wf s.near = true → ∃ t, exec (.hostAccess hart true (near + a) n data) s = .next t ∧ .reply 0 [] ∈ t.out ∧ t.far = s.far ∧
        ∀ k, Memory.read t.near k = if a ≤ k ∧ k < a + n then data.getD (k - a) 0 else Memory.read s.near k)) ∧
    (inFar → (∀ l, s.readFpa a n = some l → ∃ t, exec (.hostAccess hart false (far + a) n data) s = .next t ∧
        t = { s with far := t.far, farP := t.farP, out := s.out ++ [.reply 0 (wordsOf l)] } ∧ (s.farP = [] → t.far = s.far ∧ t.farP = [])) ∧
      (s.readFpa a n = none → ∃ t, exec (.hostAccess hart false (far + a) n data) s = .next t ∧ t.far = s.far ∧ .reply 2 [] ∈ t.out) ∧
      (∀ u, s.writeFpa a ((List.range n).map (fun i => data.getD i 0)) 6 (hartIdent hart) = some u →
        exec (.hostAccess hart true (far + a) n data) s = .next { u with out := u.out ++ [.reply 0 []] }) ∧
      (s.writeFpa a ((List.range n).map (fun i => data.getD i 0)) 6 (hartIdent hart) = none →
        ∃ t, exec (.hostAccess hart true (far + a) n data) s = .next t ∧ t.far = s.far ∧ .reply 2 [] ∈ t.out)) ∧
    (∀ w addr, 0x10000000000 ≤ addr → near < addr + n → ¬(0x80000000000 ≤ addr ∧ addr < 0xc0000000000) → (∀ b, addr = near + b → ¬covers b) →
        (∀ b, addr = far + b → ¬(b + n ≤ 2 ^ 42 ∧ fpaDie (b + n - 1) < 24)) → ∃ t, exec (.hostAccess hart w addr n data) s = .next t ∧ t.near = s.near ∧ t.far = s.far ∧ .reply 2 [] ∈ t.out)) ∧
    (s.hartUp hart = false → exec (.hostAccess hart false a n data) s = .next s) ∧
    (∀ die addr, n = data.length →
      let up := s.boot.rail = true ∧ (if die = .east then s.sched.eastUp else s.sched.westUp) = true
      let refused := { s with free := s.free + 1, out := s.out ++ [.report 7 addr] }
      (¬up → exec (.dmaWrite die addr data) s = .next s) ∧
      (up → ∃ t, exec (.dmaWrite die addr data) s = .next t ∧
        (Config.iommu s.free addr = none → t = refused) ∧
        (Config.iommu s.free addr = some (near + a) → inNear → Memory.wf s.near = true →
          t.far = s.far ∧ ∀ k, Memory.read t.near k = if a ≤ k ∧ k < a + n then data.getD (k - a) 0 else Memory.read s.near k) ∧
        (Config.iommu s.free addr = some (far + a) → inFar →
          t = (({ s with free := s.free + 1 } : State).writeFpa a data 6 ((if die = .east then 256 else 0) + 0xff)).getD refused)))

/-- LINK_DOWN of a link that is up, and COUNTER_EXHAUSTED of one that has counted 2^40 groups: the link is down, every running or held region that
crosses it has DATA_UNCORRECTABLE of class 13, and one that is still loading, or saved, is unpicked with reason 5 (R386, R390). LINK_TRAINING of a port whose
H-die serves it, while no region crosses it and no group counter of a protected one has reached 2^40: the latency becomes Lfab, with 6 more in containment mode, and the cabling is noted (R371, R381, R382).
SYNC_PULSE: an aligned one changes nothing, and a package that is out of step has every link down (R380). FABRIC_GROUP_RECEIVE: a group of five flits
is counted, and a bad tag raises INTEGRITY in a region that crosses the port where something that it awaits has a flit in the group, and changes no
other region (R389). KEY_INSTALL and KEY_SWITCH: with the rail on and a secured session open a key waits in the next slot, and at the agreed group, as
after a group that is received, the switch makes it active, with the epoch one higher and the counter at zero (R390, R397, R398). It rests on choices of
the model: log entries 8, 10, 30 (what a group holds is a free value), 39, 54. -/
def Obligations.FabricLinks : Prop :=
  ∀ (s : State) (h : Nat),
    let p := s.port h
    let crosses := fun n r => mget s.regions n = some r ∧ (r.d.state = 2 ∨ r.d.state = 3) ∧ s.crosses r h = true
    let down := fun (t : State) => (t.port h) = { p with up := false } ∧ (∀ j, j ≠ h → t.port j = s.port j) ∧ t.near = s.near ∧ t.far = s.far ∧
      (∀ n r, crosses n r → ∃ q ∈ (t.rgn n).seg.causes, q.code = 0x50 ∧ q.cls = 13) ∧
      ∀ n r, mget s.regions n = some r → r.d.state = 1 ∨ r.d.state = 4 → r.dying = false → s.crosses r h = true → (t.rgn n).dying = true ∧ (t.rgn n).pl.reason = 5
    let free := ∀ q ∈ s.regions, q.2.d.state ≠ 0 → q.2.d.state ≠ 6 → s.crosses q.2 h = false
    (p.up = true → ∃ t, exec (.linkDown h) s = .next t ∧ down t) ∧
    (p.up = false → exec (.linkDown h) s = .next s) ∧
    (∀ inward, p.up = true → 2 ^ 40 ≤ (if inward then p.ctrIn else p.ctrOut) → ∃ t, exec (.counterExhausted h inward) s = .next t ∧ down t) ∧
    (∀ inward, (if inward then p.ctrIn else p.ctrOut) < 2 ^ 40 → exec (.counterExhausted h inward) s = .next s) ∧
    (∀ lat skid prot, h < 24 → s.boot.rail = true → s.trainable h = true → (prot = true → p.spent = false) → free →
      ∃ t, exec (.linkTraining h lat skid prot) s = .next t ∧ (t.port h).up = true ∧
        (t.port h).lfab = (if prot = true ∧ skid = false then lat + 6 else lat) ∧ (prot = true → 1 ≤ (t.port h).keyset ∧ (t.port h).keyset ≤ 31) ∧
        (prot = false → (t.port h).keyset = 0) ∧ (∀ j, j ≠ h → t.port j = s.port j) ∧ t.regions = s.regions ∧
        (t.port h).cabled = (decide ((s.partnerOf h).2 % 24 = (h + 12) % 24) && Config.inDomain (s.partnerOf h).1)) ∧
    (∀ lat skid prot, 24 ≤ h ∨ s.boot.rail = false ∨ s.trainable h = false ∨ (prot = true ∧ p.spent = true) ∨ ¬free → exec (.linkTraining h lat skid prot) s = .next s) ∧
    (exec (.syncPulse true) s = .next s) ∧ (∃ t, exec (.syncPulse false) s = .next t ∧ ∀ j, j < 24 → (t.port j).up = false) ∧
    (∀ data tag, p.up = true → p.prot = true → p.ctrIn + 1 < 2 ^ 39 → data.length = 1280 → ∃ t, exec (.fabricGroupReceive h data tag) s = .next t ∧
      (t.port h = if p.nextIn.isSome = true ∧ p.ctrIn + 1 = p.atIn then { p with actIn := p.nextIn, nextIn := none, epochIn := p.epochIn + 1, ctrIn := 0 }
        else { p with ctrIn := p.ctrIn + 1 }) ∧ (∀ j, j ≠ h → t.port j = s.port j) ∧
      (p.tagGood ((s.partnerOf h).2 % 24) data tag = true → t = { s with ports := t.ports }) ∧
      (p.tagGood ((s.partnerOf h).2 % 24) data tag = false →
        (∀ n r, crosses n r → s.portUsers h = [n] →
          if s.inGroup r h = [] then t.rgn n = r ∧ t.cores = s.cores else ∃ q ∈ (t.rgn n).seg.causes, q.code = 0x51) ∧
        (∀ n r, crosses n r → s.coming r h = [] → (∀ q ∈ s.regions, q.1 ≠ n → ∀ id ∈ q.2.d.coreIds, id ∉ r.d.coreIds) → t.rgn n = r) ∧
        ∀ n, n ∉ s.portUsers h → t.rgn n = s.rgn n)) ∧
    (∀ agreed key, h < 24 → s.boot.rail = true → s.boot.secured = true →
      (∃ t, exec (.keyInstall h true ⟨key, agreed⟩) s = .next t ∧ t = { s with ports := t.ports } ∧ t.port h = { p with nextIn := some key, atIn := agreed }) ∧
      (∃ t, exec (.keyInstall h false ⟨key, agreed⟩) s = .next t ∧ t = { s with ports := t.ports } ∧ t.port h = { p with nextOut := some key, atOut := agreed })) ∧
    (∀ inward key, 24 ≤ h ∨ s.boot.rail = false ∨ s.boot.secured = false → exec (.keyInstall h inward key) s = .next s) ∧
    (∀ key, p.nextIn = some key → p.ctrIn = p.atIn → ∃ t, exec (.keySwitch h true) s = .next t ∧ t = { s with ports := t.ports } ∧
      t.port h = { p with actIn := some key, nextIn := none, epochIn := p.epochIn + 1, ctrIn := 0 }) ∧
    (∀ key, p.nextOut = some key → p.ctrOut = p.atOut → ∃ t, exec (.keySwitch h false) s = .next t ∧ t = { s with ports := t.ports } ∧
      t.port h = { p with actOut := some key, nextOut := none, epochOut := p.epochOut + 1, ctrOut := 0 }) ∧
    (p.nextIn = none ∨ p.ctrIn ≠ p.atIn → exec (.keySwitch h true) s = .next s) ∧
    (p.nextOut = none ∨ p.ctrOut ≠ p.atOut → exec (.keySwitch h false) s = .next s)

/-- SERVICE_RAIL_ON, RECOVERY_PROVISION, SERVICE_RAIL_OFF, COOLANT_FAULT, SVN_RAISE and ATTESTATION_REQUEST (R394 to R398, R400): a service
processor that fails its self test leaves service, and each other boots from the image delivered to it, if the ROM accepts it; when both have booted,
or one has and the other has left service, and the vote on the maps has a majority, the scheduler's heartbeat starts; without the host firmware the
host is out of service; one whose image is not accepted waits for the recovery image, which a booted peer that has verified one gives; without
the rail every region, core, map and key is gone and the fuses stay; the minimum SVN only rises; a measurement is sent, or all five, and signed where
that is asked, and so are the certificate chain, a signature, and the share of an exchange that opens a secured session. EASE_UP, EASE_DOWN and
THERMAL_PREEMPT (R53, R384, R400): for the regions on the die, or on every die, ease rises by one, or falls by one where repairs and the fabric allow,
once every region concerned is held, and until then they are asked to hold; a region at the limit of ease, or on a die at 105 degrees, gets a
pre-emption request where it has a save area, and is unpicked with reason 5 where it has none. It rests on choices of the
model: log entries 5, 8, 10, 38 (readiness with one service processor left, and holds for ease that resolve themselves), 39 (what a boot finds comes
from outside, and the answers of SPDM are free values). -/
def Obligations.BootAndPower : Prop :=
  (∀ s : State,
      let gone := fun (t : State) => t.cores = [] ∧ t.regions = [] ∧ t.near = [] ∧ t.mv = [] ∧ t.far = [] ∧ t.engines = [] ∧ t.maps = {} ∧ t.ports = [] ∧
        t.sched = {} ∧ t.boot.rail = false ∧ t.boot.keyHash = s.boot.keyHash ∧ t.boot.minSvn = s.boot.minSvn ∧ t.boot.image = s.boot.image ∧ t.boot.imageEast = s.boot.imageEast ∧ t.boot.finds = s.boot.finds ∧
        t.boot.west.serving = false ∧ t.boot.east.serving = false ∧ t.pcyc = s.pcyc
      (∀ rep, rep = s.boot.finds →
        let west := rep.west && s.boot.accepts s.boot.image
        let east := rep.east && s.boot.accepts s.boot.imageEast
        let spOf := fun (test img : Bool) => ((if test = false then { boot := 1 } else if img then { serving := true, boot := 8 } else { boot := 2 }) : Sp)
        (s.boot.rail = true → exec .serviceRailOn s = .next s) ∧
        (s.boot.rail = false → ∃ t, exec .serviceRailOn s = .next t ∧ t.boot.rail = true ∧
          t.boot.west = spOf rep.west (s.boot.accepts s.boot.image) ∧ t.boot.east = spOf rep.east (s.boot.accepts s.boot.imageEast) ∧
          t.boot.verified = (west || east) ∧ t.boot.barred = (s.boot.barred || ((west || east) && !rep.majority)) ∧
          t.boot.hostOut = (s.boot.hostOut || ((west || east) && !rep.host)) ∧
          (west = true → east = true → rep.majority = true → s.boot.barred = false → t.boot.ready = true) ∧
          (t.boot.ready = true → (s.pcyc + 2 ^ 20, Instr.heartbeat) ∈ t.inputs) ∧ (west = false → east = false → t = { s with boot := t.boot }) ∧
          (rep.ports = [] → t.ports = s.ports) ∧ (rep.ports = [] → rep.repairs = [] → rep.host = false → t.regions = s.regions ∧ t.far = s.far))) ∧
      (∀ side, (s.boot.sp side).boot = 2 → ∃ t, exec (.recoveryProvision side) s = .next t ∧ t.boot.sp (otherSide side) = s.boot.sp (otherSide side) ∧
        t.boot.sp side = if (s.boot.sp (otherSide side)).boot = 8 ∧ s.boot.verified = true ∧ s.boot.accepts s.boot.good = true then
          { serving := true, boot := 8 } else { boot := 1 }) ∧
      (∀ side, (s.boot.sp side).boot = 2 → (s.boot.sp (otherSide side)).boot = 8 → s.boot.barred = false → ∃ t, exec (.recoveryProvision side) s = .next t ∧ t.boot.ready = true ∧
        (s.pcyc + 2 ^ 20, Instr.heartbeat) ∈ t.inputs) ∧
      (∀ side, (s.boot.sp side).boot ≠ 2 → exec (.recoveryProvision side) s = .next s) ∧
      (∃ t, exec .serviceRailOff s = .next t ∧ gone t ∧ t.out = s.out) ∧
      (∃ t, exec .coolantFault s = .next t ∧ gone t) ∧
      (∀ v : BitVec 32, s.boot.west.serving = true ∨ s.boot.east.serving = true → exec (.svnRaise v) s = .next { s with boot := { s.boot with minSvn := max s.boot.minSvn v.toNat } }) ∧
      (∀ side, let asks := fun q => exec (.attestationRequest side q) s
        let p := s.boot.sp side
        let signed := fun (l : List Msg) => { s with free := s.free + 1, out := s.out ++ l ++ [.signature (Config.identitySign s.free)] }
        (p.serving = false → ∀ q, asks q = .next s) ∧
        (p.serving = true →
          (∀ n l, (1 ≤ n ∧ n ≤ 5 ∧ l = [s.measurement n]) ∨ (n = 255 ∧ l = [1, 2, 3, 4, 5].map s.measurement) →
            asks (.measurements n false) = .next { s with out := s.out ++ [.attest l] } ∧ asks (.measurements n true) = .next (signed [.attest l])) ∧
          asks (.certificate 0) = .next { s with out := s.out ++ [.chain Config.certChain] } ∧ asks (.challenge 0) = .next (signed []) ∧
          (∀ share, ∃ t, asks (.keyExchange share) = .next t ∧ t.boot.sp side = { p with session := true } ∧
            t.out = s.out ++ [.share (Config.exchangeShare s.free), .signature (Config.identitySign (s.free + 1))] ∧ t.ports = s.ports ∧ t.regions = s.regions) ∧
          (∃ t, asks .endSession = .next t ∧ t = { s with boot := t.boot } ∧ t.boot.sp side = { p with session := false } ∧
            t.boot.sp (otherSide side) = s.boot.sp (otherSide side)) ∧
          ∀ n q, (q = .other n ∨ (q = .certificate n ∨ q = .challenge n) ∧ n ≠ 0 ∨ (∃ b, q = .measurements n b) ∧ (n = 0 ∨ 5 < n ∧ n ≠ 255)) →
            asks q = .next { s with out := s.out ++ [.report 9 n] }))) ∧
  (∀ (s : State) (n : Nat) (die : Option Nat), (s.regions.map Prod.fst).Nodup → n ∈ s.onHot die →
      let r := s.rgn n
      let l := s.onHot die
      let asked := fun (t : State) (i : Instr) => (t.rgn n).d = r.d ∧ (t.rgn n).clk = r.clk ∧ (∃ e ∈ t.inputs, e.2 = i) ∧ t.cores = s.cores ∧
        ∃ q ∈ (t.rgn n).seg.causes, q.code = 0x73 ∧ q.cls = 1 ∧ q.resolved = false
      let eased := fun (t : State) e => (t.rgn n).d = { r.d with ease := e } ∧ (t.rgn n).clk = r.clk ∧
        ∀ q ∈ (t.rgn n).seg.causes, q.code = 0x73 → q.cls = 1 → q.resolved = true
      let ended := fun (t : State) => (r.d.save = 0 → (t.rgn n).d.state = 6 ∧ (t.rgn n).pl.reason = 5) ∧
        (r.d.save ≠ 0 → r.pre.req = none → t.rgn n = { r with pre := { req := some r.clk.sc } })
      let room := l.filter (fun m => (s.rgn m).d.ease < 7)
      let lower := l.filter (fun m => decide (s.loadK (s.rgn m) ≤ (s.rgn m).d.ease))
      ((∃ m ∈ room, (s.rgn m).d.state = 2) → ∃ t, exec (.easeUp die) s = .next t ∧ if r.d.ease < 7 then asked t (.easeUp die) else t.rgn n = r) ∧
      ((∀ m ∈ room, (s.rgn m).d.state ≠ 2) → ∃ t, exec (.easeUp die) s = .next t ∧ (room = l → t.cores = s.cores) ∧
        if r.d.ease < 7 then eased t (r.d.ease + 1) else ended t) ∧
      ((∃ m ∈ lower, (s.rgn m).d.state = 2) → ∃ t, exec (.easeDown die) s = .next t ∧ if n ∈ lower then asked t (.easeDown die) else t.rgn n = r) ∧
      ((∀ m ∈ lower, (s.rgn m).d.state ≠ 2) → ∃ t, exec (.easeDown die) s = .next t ∧ t.cores = s.cores ∧
        if n ∈ lower then eased t (r.d.ease - 1) else t.rgn n = r) ∧
      (∀ unit, die = some unit → ∃ t, exec (.thermalPreempt unit) s = .next t ∧ ended t ∧ (∀ m, m ∉ l → t.rgn m = s.rgn m) ∧
        ((∀ m ∈ l, (s.rgn m).d.save ≠ 0) → t.cores = s.cores)))

/-! ## The machine as a whole -/

/-- Every step keeps every memory in canonical form: near memory, MV buffers, far memory, scratchpads and instruction memories (log entry 3). -/
def Obligations.StepKeepsMemory : Prop :=
  ∀ s t : State, s.memWf → step s = .next t → t.memWf

/-- Reset (R91, R394 to R398; log entries 2 to 7): no region is placed and no core holds one, every memory reads zero and is in canonical form,
every map is the identity (R18, R19, R22), no interrupt is pending, both schedulers' dies count as in service with the west one active, and neither service processor serves. -/
def Obligations.ResetState : Prop :=
  let s := State.reset
  s.memWf ∧ (∀ n, (s.rgn n).d.state = 0) ∧ (∀ c, (s.core c).issue = .noRegion ∧ (s.core c).regs = {} ∧ (s.core c).sp = {}) ∧
  (∀ c a, Memory.read (s.core c).scr a = 0 ∧ Memory.read (s.core c).imem a = 0) ∧ s.maps.darned = none ∧ s.maps.retired = [] ∧ s.maps.excluded = [] ∧
  s.maps.remote = [] ∧ s.maps.halves = [] ∧ s.maps.banks = [] ∧ s.maps.seams = [] ∧ (∀ c, s.maps.phys c = c / 96 % 8 * 2 ^ 11 + c % 8 * 2 ^ 7 + c / 768 * 2 ^ 4 + c % 96 / 8) ∧
  (∀ a, Memory.read s.near a = 0 ∧ Memory.read s.mv a = 0 ∧ Memory.read s.far a = 0) ∧ (∀ h : Fin 24, s.hPhys h.val = if h.val < 12 then h.val else h.val + 1) ∧
  (∀ h, (s.port h).up = false) ∧ s.sched.east = false ∧ s.sched.eastUp = true ∧ s.sched.westUp = true ∧ s.pend = [] ∧ s.boot.rail = false ∧ s.boot.west.serving = false ∧ s.boot.east.serving = false ∧ s.pcyc = 0
end

