-- ==== Sys2Proof/Laws/Far.lean ====
section
/-! SUPPORT. Laws of far memory: the repair of a bad stripe in place (spec/16_faults_recovery.md R374) changes the bytes of far memory and their marks
alone, and nothing where every byte is in order. -/
namespace Sys2Proof.Machine

/-- Does a state differ from another in far memory and its marks alone? -/
def FarOnly (s t : State) : Prop := t = { s with far := t.far, farP := t.farP }

theorem FarOnly.refl (s : State) : FarOnly s s := rfl

theorem FarOnly.trans {s t u : State} (h : FarOnly s t) (k : FarOnly t u) : FarOnly s u := by
  unfold FarOnly at *
  rw [k, h]

theorem farOnly_foldl {α : Type} (f : State → α → State) (h : ∀ s x, FarOnly s (f s x)) (l : List α) (s : State) : FarOnly s (l.foldl f s) := by
  induction l generalizing s with
  | nil => rfl
  | cons x l ih => exact (h s x).trans (ih _)

theorem pokeFar_farOnly (s : State) (key : Nat) (b : Byte) (m : Option Poison) : FarOnly s (s.pokeFar key b m) := by
  unfold State.pokeFar
  split
  · rfl
  · dsimp only
    split <;> rfl

theorem fillAt_farOnly (s : State) (l : BitVec 64) (g e : Nat) : FarOnly s (s.fillAt l g e) := by
  unfold State.fillAt
  split
  · rfl
  · refine farOnly_foldl _ (fun t m => ?_) _ s
    split
    · rfl
    · exact pokeFar_farOnly ..

theorem healAt_farOnly (s : State) (l : BitVec 64) (g e : Nat) : FarOnly s (s.healAt l g e) := by
  unfold State.healAt
  dsimp only
  split
  · split
    · exact fillAt_farOnly ..
    · rfl
  · rfl

theorem healSpan_farOnly (s : State) (a n : Nat) : FarOnly s (s.healSpan a n) := by
  unfold State.healSpan
  split
  · rfl
  · refine farOnly_foldl _ (fun t q => ?_) _ s
    dsimp only
    split
    · exact healAt_farOnly ..
    · rfl

/-- What an action reads of far memory is repaired, and nothing else of the state changes. -/
theorem healed_farOnly (s : State) (l : List (Nat × Nat)) : FarOnly s (s.healed l) := by
  unfold State.healed
  split
  · rfl
  · exact farOnly_foldl _ (fun t q => healSpan_farOnly t q.1 q.2) l s

/-- Nothing is repaired where every byte is in order. -/
@[simp] theorem healed_of_clean (s : State) (l : List (Nat × Nat)) (h : s.farP = []) : s.healed l = s := by simp [State.healed, h]

@[simp] theorem rgn_healed (s : State) (l : List (Nat × Nat)) (n : Nat) : (s.healed l).rgn n = s.rgn n := by rw [healed_farOnly s l]; rfl
@[simp] theorem core_healed (s : State) (l : List (Nat × Nat)) (n : Nat) : (s.healed l).core n = s.core n := by rw [healed_farOnly s l]; rfl

end Sys2Proof.Machine
end

