-- ==== Sys2Proof/Laws/Store.lean ====
section
/-! SUPPORT. Laws of sparse collections and byte memories: what a read gives after a write, and that every memory operation keeps the canonical
form (log entry 3). -/
namespace Sys2Proof.Machine

/-! ## Sparse collections -/

@[simp] theorem mget_nil {α : Type} (n : Nat) : mget ([] : Map α) n = none := rfl

theorem mget_cons {α : Type} (k : Nat) (x : α) (m : Map α) (n : Nat) : mget ((k, x) :: m) n = if k = n then some x else mget m n := rfl

theorem mget_mset {α : Type} (m : Map α) (n j : Nat) (x : α) : mget (mset m n x) j = if n = j then some x else mget m j := by
  induction m with
  | nil => rfl
  | cons p m ih =>
    obtain ⟨k, y⟩ := p
    by_cases h1 : n < k
    · simp [mset, h1, mget_cons]
    · by_cases h2 : n = k
      · subst h2
        by_cases h3 : n = j <;> simp [mset, mget_cons, h3]
      · by_cases h3 : k = j
        · subst h3
          simp [mset, h1, h2, mget_cons]
        · simp [mset, h1, h2, mget_cons, h3, ih]

@[simp] theorem mget_mset_same {α : Type} (m : Map α) (n : Nat) (x : α) : mget (mset m n x) n = some x := by simp [mget_mset]

theorem mget_mset_ne {α : Type} (m : Map α) {n j : Nat} (x : α) (h : n ≠ j) : mget (mset m n x) j = mget m j := by simp [mget_mset, h]

@[simp] theorem mset_mset {α : Type} (m : Map α) (n : Nat) (x y : α) : mset (mset m n x) n y = mset m n y := by
  induction m with
  | nil => simp [mset]
  | cons p m ih =>
    obtain ⟨k, z⟩ := p
    by_cases h1 : n < k
    · simp [mset, h1]
    · by_cases h2 : n = k
      · subst h2; simp [mset]
      · simp [mset, h1, h2, ih]

theorem mgetD_mset {α : Type} (m : Map α) (n j : Nat) (x d : α) : mgetD (mset m n x) j d = if n = j then x else mgetD m j d := by
  unfold mgetD
  rw [mget_mset]
  split <;> rfl

@[simp] theorem mgetD_mset_same {α : Type} (m : Map α) (n : Nat) (x d : α) : mgetD (mset m n x) n d = x := by simp [mgetD_mset]

/-! ## The canonical form -/

theorem wfFrom_mono {lo hi : Nat} (h : lo ≤ hi) {m : Mem} (w : Memory.wfFrom hi m = true) : Memory.wfFrom lo m = true := by
  cases m with
  | nil => rfl
  | cons p m =>
    obtain ⟨a, b⟩ := p
    simp only [Memory.wfFrom, Bool.and_eq_true, decide_eq_true_eq] at w ⊢
    exact ⟨⟨by omega, w.1.2⟩, w.2⟩

theorem wfFrom_mset {m : Mem} {lo a : Nat} {b : Byte} (w : Memory.wfFrom lo m = true) (h : lo ≤ a) (hb : b ≠ 0) :
    Memory.wfFrom lo (mset m a b) = true := by
  induction m generalizing lo with
  | nil =>
    simp only [mset, Memory.wfFrom, h, decide_true, Bool.true_and, Bool.and_true, decide_eq_true_eq]
    exact hb
  | cons p m ih =>
    obtain ⟨k, y⟩ := p
    simp only [Memory.wfFrom, Bool.and_eq_true, decide_eq_true_eq] at w
    unfold mset
    split
    · simp only [Memory.wfFrom, Bool.and_eq_true, decide_eq_true_eq]
      exact ⟨⟨h, hb⟩, ⟨by omega, w.1.2⟩, w.2⟩
    · split
      · simp only [Memory.wfFrom, Bool.and_eq_true, decide_eq_true_eq]
        exact ⟨⟨h, hb⟩, by have := w.2; simp_all⟩
      · simp only [Memory.wfFrom, Bool.and_eq_true, decide_eq_true_eq]
        exact ⟨⟨w.1.1, w.1.2⟩, ih w.2 (by omega)⟩

theorem wfFrom_mdel {m : Mem} {lo : Nat} (a : Nat) (w : Memory.wfFrom lo m = true) : Memory.wfFrom lo (mdel m a) = true := by
  induction m generalizing lo with
  | nil => exact w
  | cons p m ih =>
    obtain ⟨k, y⟩ := p
    simp only [Memory.wfFrom, Bool.and_eq_true, decide_eq_true_eq] at w
    unfold mdel
    split
    · exact wfFrom_mono (by omega) w.2
    · simp only [Memory.wfFrom, Bool.and_eq_true, decide_eq_true_eq]
      exact ⟨w.1, ih w.2⟩

theorem wfFrom_filter {m : Mem} {lo : Nat} (f : Nat × Byte → Bool) (w : Memory.wfFrom lo m = true) :
    Memory.wfFrom lo (m.filter f) = true := by
  induction m generalizing lo with
  | nil => exact w
  | cons p m ih =>
    obtain ⟨k, y⟩ := p
    simp only [Memory.wfFrom, Bool.and_eq_true, decide_eq_true_eq] at w
    rw [List.filter_cons]
    split
    · simp only [Memory.wfFrom, Bool.and_eq_true, decide_eq_true_eq]
      exact ⟨w.1, ih w.2⟩
    · exact wfFrom_mono (by omega) (ih w.2)

@[simp] theorem wf_nil : Memory.wf [] = true := rfl

/-- Dropping bytes keeps the canonical form. -/
theorem Memory.wf_filter {m : Mem} (f : Nat × Byte → Bool) (w : Memory.wf m = true) : Memory.wf (m.filter f) = true := wfFrom_filter f w

/-- A write of a byte keeps the canonical form. -/
theorem Memory.wf_write {m : Mem} (a : Nat) (b : Byte) (w : Memory.wf m = true) : Memory.wf (Memory.write m a b) = true := by
  unfold Memory.write
  split
  · exact wfFrom_mdel a w
  · exact wfFrom_mset w (Nat.zero_le a) ‹_›

/-- A write of bytes keeps the canonical form. -/
theorem Memory.wf_writeN {m : Mem} (a : Nat) (bs : List Byte) (w : Memory.wf m = true) : Memory.wf (Memory.writeN m a bs) = true := by
  induction bs generalizing m a with
  | nil => exact w
  | cons b bs ih => exact ih _ (Memory.wf_write a b w)

/-- A write of a number keeps the canonical form. -/
theorem Memory.wf_writeLE {m : Mem} (a n x : Nat) (w : Memory.wf m = true) : Memory.wf (Memory.writeLE m a n x) = true := Memory.wf_writeN _ _ w

/-- A write of a chunk keeps the canonical form. -/
theorem wf_writeChunk {m : Mem} (p : Marks) (a : Nat) (c : Chunk) (w : Memory.wf m = true) : Memory.wf (writeChunk m p a c).1 = true :=
  Memory.wf_writeN _ _ w

/-! ## Reads and writes -/

theorem mget_of_wfFrom {m : Mem} {lo a : Nat} (w : Memory.wfFrom lo m = true) (h : a < lo) : mget m a = none := by
  induction m generalizing lo with
  | nil => rfl
  | cons p m ih =>
    obtain ⟨k, y⟩ := p
    simp only [Memory.wfFrom, Bool.and_eq_true, decide_eq_true_eq] at w
    have : k ≠ a := by omega
    simp [mget_cons, this, ih w.2 (by omega)]

theorem mget_mdel {m : Mem} {lo : Nat} (a c : Nat) (w : Memory.wfFrom lo m = true) : mget (mdel m a) c = if a = c then none else mget m c := by
  induction m generalizing lo with
  | nil => simp [mdel]
  | cons p m ih =>
    obtain ⟨k, y⟩ := p
    simp only [Memory.wfFrom, Bool.and_eq_true, decide_eq_true_eq] at w
    unfold mdel
    split
    · subst_vars
      split
      · subst_vars; exact mget_of_wfFrom w.2 (by omega)
      · simp [mget_cons, *]
    · rw [mget_cons, ih w.2, mget_cons]
      by_cases h1 : k = c
      · have : a ≠ c := by omega
        simp [h1, this]
      · simp [h1]

/-- A byte read after a write of a byte: the written byte there, and what stood before everywhere else. -/
theorem Memory.read_write {m : Mem} (a c : Nat) (b : Byte) (w : Memory.wf m = true) :
    Memory.read (Memory.write m a b) c = if a = c then b else Memory.read m c := by
  unfold Memory.read Memory.write
  split
  · rw [mget_mdel a c w]
    split <;> simp_all
  · rw [mget_mset]
    split <;> simp_all

/-- A byte read after a write of bytes. -/
theorem Memory.read_writeN {m : Mem} (a c : Nat) (bs : List Byte) (w : Memory.wf m = true) :
    Memory.read (Memory.writeN m a bs) c = if h : a ≤ c ∧ c < a + bs.length then bs[c - a]'(by omega) else Memory.read m c := by
  induction bs generalizing m a with
  | nil =>
    have : ¬(a ≤ c ∧ c < a) := by omega
    simp [Memory.writeN, this]
  | cons b bs ih =>
    rw [Memory.writeN, ih _ (Memory.wf_write a b w), Memory.read_write _ _ _ w]
    by_cases h1 : a = c
    · subst h1
      rw [dif_neg (by omega)]
      simp
    · by_cases h2 : a + 1 ≤ c ∧ c < a + 1 + bs.length
      · have h3 : a ≤ c ∧ c < a + (bs.length + 1) := by omega
        have h4 : c - a = (c - (a + 1)) + 1 := by omega
        simp [h2, h3, h4]
      · have h3 : ¬(a ≤ c ∧ c < a + (b :: bs).length) := by simp only [List.length_cons]; omega
        rw [dif_neg h2, dif_neg h3, if_neg (by omega)]

/-- A write changes no byte outside what it writes. -/
theorem Memory.read_writeN_outside {m : Mem} {a c : Nat} (bs : List Byte) (w : Memory.wf m = true) (h : c < a ∨ a + bs.length ≤ c) :
    Memory.read (Memory.writeN m a bs) c = Memory.read m c := by
  rw [Memory.read_writeN _ _ _ w, dif_neg (by omega)]

@[simp] theorem Memory.readN_length (m : Mem) (a n : Nat) : (Memory.readN m a n).length = n := by simp [Memory.readN]

@[simp] theorem toBytes_length (n x : Nat) : (toBytes n x).length = n := by simp [toBytes]

end Sys2Proof.Machine
end

