-- ==== Sys2Proof/Laws/State.lean ====
section
/-! SUPPORT. Laws of the state: for each named update, each field that it leaves alone, and what an accessor reads after it. -/
namespace Sys2Proof.Machine

/-! ### State.setRgn -/

@[simp] theorem State.setRgn_cores (s : State) (n : Nat) (r : Region) : (s.setRgn n r).cores = s.cores := rfl
@[simp] theorem State.setRgn_near (s : State) (n : Nat) (r : Region) : (s.setRgn n r).near = s.near := rfl
@[simp] theorem State.setRgn_nearP (s : State) (n : Nat) (r : Region) : (s.setRgn n r).nearP = s.nearP := rfl
@[simp] theorem State.setRgn_mv (s : State) (n : Nat) (r : Region) : (s.setRgn n r).mv = s.mv := rfl
@[simp] theorem State.setRgn_mvP (s : State) (n : Nat) (r : Region) : (s.setRgn n r).mvP = s.mvP := rfl
@[simp] theorem State.setRgn_far (s : State) (n : Nat) (r : Region) : (s.setRgn n r).far = s.far := rfl
@[simp] theorem State.setRgn_farP (s : State) (n : Nat) (r : Region) : (s.setRgn n r).farP = s.farP := rfl
@[simp] theorem State.setRgn_engines (s : State) (n : Nat) (r : Region) : (s.setRgn n r).engines = s.engines := rfl
@[simp] theorem State.setRgn_maps (s : State) (n : Nat) (r : Region) : (s.setRgn n r).maps = s.maps := rfl
@[simp] theorem State.setRgn_hdies (s : State) (n : Nat) (r : Region) : (s.setRgn n r).hdies = s.hdies := rfl
@[simp] theorem State.setRgn_sched (s : State) (n : Nat) (r : Region) : (s.setRgn n r).sched = s.sched := rfl
@[simp] theorem State.setRgn_tack (s : State) (n : Nat) (r : Region) : (s.setRgn n r).tack = s.tack := rfl
@[simp] theorem State.setRgn_ports (s : State) (n : Nat) (r : Region) : (s.setRgn n r).ports = s.ports := rfl
@[simp] theorem State.setRgn_boot (s : State) (n : Nat) (r : Region) : (s.setRgn n r).boot = s.boot := rfl
@[simp] theorem State.setRgn_corr (s : State) (n : Nat) (r : Region) : (s.setRgn n r).corr = s.corr := rfl
@[simp] theorem State.setRgn_imsic (s : State) (n : Nat) (r : Region) : (s.setRgn n r).imsic = s.imsic := rfl
@[simp] theorem State.setRgn_pend (s : State) (n : Nat) (r : Region) : (s.setRgn n r).pend = s.pend := rfl
@[simp] theorem State.setRgn_out (s : State) (n : Nat) (r : Region) : (s.setRgn n r).out = s.out := rfl
@[simp] theorem State.setRgn_pcyc (s : State) (n : Nat) (r : Region) : (s.setRgn n r).pcyc = s.pcyc := rfl
@[simp] theorem State.setRgn_focus (s : State) (n : Nat) (r : Region) : (s.setRgn n r).focus = s.focus := rfl
@[simp] theorem State.setRgn_inputs (s : State) (n : Nat) (r : Region) : (s.setRgn n r).inputs = s.inputs := rfl
@[simp] theorem State.setRgn_tcWait (s : State) (n : Nat) (r : Region) : (s.setRgn n r).tcWait = s.tcWait := rfl
@[simp] theorem State.setRgn_free (s : State) (n : Nat) (r : Region) : (s.setRgn n r).free = s.free := rfl

/-! ### State.modRgn -/

@[simp] theorem State.modRgn_cores (s : State) (n : Nat) (f : Region → Region) : (s.modRgn n f).cores = s.cores := rfl
@[simp] theorem State.modRgn_near (s : State) (n : Nat) (f : Region → Region) : (s.modRgn n f).near = s.near := rfl
@[simp] theorem State.modRgn_nearP (s : State) (n : Nat) (f : Region → Region) : (s.modRgn n f).nearP = s.nearP := rfl
@[simp] theorem State.modRgn_mv (s : State) (n : Nat) (f : Region → Region) : (s.modRgn n f).mv = s.mv := rfl
@[simp] theorem State.modRgn_mvP (s : State) (n : Nat) (f : Region → Region) : (s.modRgn n f).mvP = s.mvP := rfl
@[simp] theorem State.modRgn_far (s : State) (n : Nat) (f : Region → Region) : (s.modRgn n f).far = s.far := rfl
@[simp] theorem State.modRgn_farP (s : State) (n : Nat) (f : Region → Region) : (s.modRgn n f).farP = s.farP := rfl
@[simp] theorem State.modRgn_engines (s : State) (n : Nat) (f : Region → Region) : (s.modRgn n f).engines = s.engines := rfl
@[simp] theorem State.modRgn_maps (s : State) (n : Nat) (f : Region → Region) : (s.modRgn n f).maps = s.maps := rfl
@[simp] theorem State.modRgn_hdies (s : State) (n : Nat) (f : Region → Region) : (s.modRgn n f).hdies = s.hdies := rfl
@[simp] theorem State.modRgn_sched (s : State) (n : Nat) (f : Region → Region) : (s.modRgn n f).sched = s.sched := rfl
@[simp] theorem State.modRgn_tack (s : State) (n : Nat) (f : Region → Region) : (s.modRgn n f).tack = s.tack := rfl
@[simp] theorem State.modRgn_ports (s : State) (n : Nat) (f : Region → Region) : (s.modRgn n f).ports = s.ports := rfl
@[simp] theorem State.modRgn_boot (s : State) (n : Nat) (f : Region → Region) : (s.modRgn n f).boot = s.boot := rfl
@[simp] theorem State.modRgn_corr (s : State) (n : Nat) (f : Region → Region) : (s.modRgn n f).corr = s.corr := rfl
@[simp] theorem State.modRgn_imsic (s : State) (n : Nat) (f : Region → Region) : (s.modRgn n f).imsic = s.imsic := rfl
@[simp] theorem State.modRgn_pend (s : State) (n : Nat) (f : Region → Region) : (s.modRgn n f).pend = s.pend := rfl
@[simp] theorem State.modRgn_out (s : State) (n : Nat) (f : Region → Region) : (s.modRgn n f).out = s.out := rfl
@[simp] theorem State.modRgn_pcyc (s : State) (n : Nat) (f : Region → Region) : (s.modRgn n f).pcyc = s.pcyc := rfl
@[simp] theorem State.modRgn_focus (s : State) (n : Nat) (f : Region → Region) : (s.modRgn n f).focus = s.focus := rfl
@[simp] theorem State.modRgn_inputs (s : State) (n : Nat) (f : Region → Region) : (s.modRgn n f).inputs = s.inputs := rfl
@[simp] theorem State.modRgn_tcWait (s : State) (n : Nat) (f : Region → Region) : (s.modRgn n f).tcWait = s.tcWait := rfl
@[simp] theorem State.modRgn_free (s : State) (n : Nat) (f : Region → Region) : (s.modRgn n f).free = s.free := rfl

/-! ### State.setCore -/

@[simp] theorem State.setCore_regions (s : State) (c : Nat) (x : Core) : (s.setCore c x).regions = s.regions := rfl
@[simp] theorem State.setCore_near (s : State) (c : Nat) (x : Core) : (s.setCore c x).near = s.near := rfl
@[simp] theorem State.setCore_nearP (s : State) (c : Nat) (x : Core) : (s.setCore c x).nearP = s.nearP := rfl
@[simp] theorem State.setCore_mv (s : State) (c : Nat) (x : Core) : (s.setCore c x).mv = s.mv := rfl
@[simp] theorem State.setCore_mvP (s : State) (c : Nat) (x : Core) : (s.setCore c x).mvP = s.mvP := rfl
@[simp] theorem State.setCore_far (s : State) (c : Nat) (x : Core) : (s.setCore c x).far = s.far := rfl
@[simp] theorem State.setCore_farP (s : State) (c : Nat) (x : Core) : (s.setCore c x).farP = s.farP := rfl
@[simp] theorem State.setCore_engines (s : State) (c : Nat) (x : Core) : (s.setCore c x).engines = s.engines := rfl
@[simp] theorem State.setCore_maps (s : State) (c : Nat) (x : Core) : (s.setCore c x).maps = s.maps := rfl
@[simp] theorem State.setCore_hdies (s : State) (c : Nat) (x : Core) : (s.setCore c x).hdies = s.hdies := rfl
@[simp] theorem State.setCore_sched (s : State) (c : Nat) (x : Core) : (s.setCore c x).sched = s.sched := rfl
@[simp] theorem State.setCore_tack (s : State) (c : Nat) (x : Core) : (s.setCore c x).tack = s.tack := rfl
@[simp] theorem State.setCore_ports (s : State) (c : Nat) (x : Core) : (s.setCore c x).ports = s.ports := rfl
@[simp] theorem State.setCore_boot (s : State) (c : Nat) (x : Core) : (s.setCore c x).boot = s.boot := rfl
@[simp] theorem State.setCore_corr (s : State) (c : Nat) (x : Core) : (s.setCore c x).corr = s.corr := rfl
@[simp] theorem State.setCore_imsic (s : State) (c : Nat) (x : Core) : (s.setCore c x).imsic = s.imsic := rfl
@[simp] theorem State.setCore_pend (s : State) (c : Nat) (x : Core) : (s.setCore c x).pend = s.pend := rfl
@[simp] theorem State.setCore_out (s : State) (c : Nat) (x : Core) : (s.setCore c x).out = s.out := rfl
@[simp] theorem State.setCore_pcyc (s : State) (c : Nat) (x : Core) : (s.setCore c x).pcyc = s.pcyc := rfl
@[simp] theorem State.setCore_focus (s : State) (c : Nat) (x : Core) : (s.setCore c x).focus = s.focus := rfl
@[simp] theorem State.setCore_inputs (s : State) (c : Nat) (x : Core) : (s.setCore c x).inputs = s.inputs := rfl
@[simp] theorem State.setCore_tcWait (s : State) (c : Nat) (x : Core) : (s.setCore c x).tcWait = s.tcWait := rfl
@[simp] theorem State.setCore_free (s : State) (c : Nat) (x : Core) : (s.setCore c x).free = s.free := rfl

/-! ### State.modCore -/

@[simp] theorem State.modCore_regions (s : State) (c : Nat) (f : Core → Core) : (s.modCore c f).regions = s.regions := rfl
@[simp] theorem State.modCore_near (s : State) (c : Nat) (f : Core → Core) : (s.modCore c f).near = s.near := rfl
@[simp] theorem State.modCore_nearP (s : State) (c : Nat) (f : Core → Core) : (s.modCore c f).nearP = s.nearP := rfl
@[simp] theorem State.modCore_mv (s : State) (c : Nat) (f : Core → Core) : (s.modCore c f).mv = s.mv := rfl
@[simp] theorem State.modCore_mvP (s : State) (c : Nat) (f : Core → Core) : (s.modCore c f).mvP = s.mvP := rfl
@[simp] theorem State.modCore_far (s : State) (c : Nat) (f : Core → Core) : (s.modCore c f).far = s.far := rfl
@[simp] theorem State.modCore_farP (s : State) (c : Nat) (f : Core → Core) : (s.modCore c f).farP = s.farP := rfl
@[simp] theorem State.modCore_engines (s : State) (c : Nat) (f : Core → Core) : (s.modCore c f).engines = s.engines := rfl
@[simp] theorem State.modCore_maps (s : State) (c : Nat) (f : Core → Core) : (s.modCore c f).maps = s.maps := rfl
@[simp] theorem State.modCore_hdies (s : State) (c : Nat) (f : Core → Core) : (s.modCore c f).hdies = s.hdies := rfl
@[simp] theorem State.modCore_sched (s : State) (c : Nat) (f : Core → Core) : (s.modCore c f).sched = s.sched := rfl
@[simp] theorem State.modCore_tack (s : State) (c : Nat) (f : Core → Core) : (s.modCore c f).tack = s.tack := rfl
@[simp] theorem State.modCore_ports (s : State) (c : Nat) (f : Core → Core) : (s.modCore c f).ports = s.ports := rfl
@[simp] theorem State.modCore_boot (s : State) (c : Nat) (f : Core → Core) : (s.modCore c f).boot = s.boot := rfl
@[simp] theorem State.modCore_corr (s : State) (c : Nat) (f : Core → Core) : (s.modCore c f).corr = s.corr := rfl
@[simp] theorem State.modCore_imsic (s : State) (c : Nat) (f : Core → Core) : (s.modCore c f).imsic = s.imsic := rfl
@[simp] theorem State.modCore_pend (s : State) (c : Nat) (f : Core → Core) : (s.modCore c f).pend = s.pend := rfl
@[simp] theorem State.modCore_out (s : State) (c : Nat) (f : Core → Core) : (s.modCore c f).out = s.out := rfl
@[simp] theorem State.modCore_pcyc (s : State) (c : Nat) (f : Core → Core) : (s.modCore c f).pcyc = s.pcyc := rfl
@[simp] theorem State.modCore_focus (s : State) (c : Nat) (f : Core → Core) : (s.modCore c f).focus = s.focus := rfl
@[simp] theorem State.modCore_inputs (s : State) (c : Nat) (f : Core → Core) : (s.modCore c f).inputs = s.inputs := rfl
@[simp] theorem State.modCore_tcWait (s : State) (c : Nat) (f : Core → Core) : (s.modCore c f).tcWait = s.tcWait := rfl
@[simp] theorem State.modCore_free (s : State) (c : Nat) (f : Core → Core) : (s.modCore c f).free = s.free := rfl

/-! ### State.setFc -/

@[simp] theorem State.setFc_regions (s : State) (x : Core) : (s.setFc x).regions = s.regions := rfl
@[simp] theorem State.setFc_near (s : State) (x : Core) : (s.setFc x).near = s.near := rfl
@[simp] theorem State.setFc_nearP (s : State) (x : Core) : (s.setFc x).nearP = s.nearP := rfl
@[simp] theorem State.setFc_mv (s : State) (x : Core) : (s.setFc x).mv = s.mv := rfl
@[simp] theorem State.setFc_mvP (s : State) (x : Core) : (s.setFc x).mvP = s.mvP := rfl
@[simp] theorem State.setFc_far (s : State) (x : Core) : (s.setFc x).far = s.far := rfl
@[simp] theorem State.setFc_farP (s : State) (x : Core) : (s.setFc x).farP = s.farP := rfl
@[simp] theorem State.setFc_engines (s : State) (x : Core) : (s.setFc x).engines = s.engines := rfl
@[simp] theorem State.setFc_maps (s : State) (x : Core) : (s.setFc x).maps = s.maps := rfl
@[simp] theorem State.setFc_hdies (s : State) (x : Core) : (s.setFc x).hdies = s.hdies := rfl
@[simp] theorem State.setFc_sched (s : State) (x : Core) : (s.setFc x).sched = s.sched := rfl
@[simp] theorem State.setFc_tack (s : State) (x : Core) : (s.setFc x).tack = s.tack := rfl
@[simp] theorem State.setFc_ports (s : State) (x : Core) : (s.setFc x).ports = s.ports := rfl
@[simp] theorem State.setFc_boot (s : State) (x : Core) : (s.setFc x).boot = s.boot := rfl
@[simp] theorem State.setFc_corr (s : State) (x : Core) : (s.setFc x).corr = s.corr := rfl
@[simp] theorem State.setFc_imsic (s : State) (x : Core) : (s.setFc x).imsic = s.imsic := rfl
@[simp] theorem State.setFc_pend (s : State) (x : Core) : (s.setFc x).pend = s.pend := rfl
@[simp] theorem State.setFc_out (s : State) (x : Core) : (s.setFc x).out = s.out := rfl
@[simp] theorem State.setFc_pcyc (s : State) (x : Core) : (s.setFc x).pcyc = s.pcyc := rfl
@[simp] theorem State.setFc_focus (s : State) (x : Core) : (s.setFc x).focus = s.focus := rfl
@[simp] theorem State.setFc_inputs (s : State) (x : Core) : (s.setFc x).inputs = s.inputs := rfl
@[simp] theorem State.setFc_tcWait (s : State) (x : Core) : (s.setFc x).tcWait = s.tcWait := rfl
@[simp] theorem State.setFc_free (s : State) (x : Core) : (s.setFc x).free = s.free := rfl

/-! ### State.modFc -/

@[simp] theorem State.modFc_regions (s : State) (f : Core → Core) : (s.modFc f).regions = s.regions := rfl
@[simp] theorem State.modFc_near (s : State) (f : Core → Core) : (s.modFc f).near = s.near := rfl
@[simp] theorem State.modFc_nearP (s : State) (f : Core → Core) : (s.modFc f).nearP = s.nearP := rfl
@[simp] theorem State.modFc_mv (s : State) (f : Core → Core) : (s.modFc f).mv = s.mv := rfl
@[simp] theorem State.modFc_mvP (s : State) (f : Core → Core) : (s.modFc f).mvP = s.mvP := rfl
@[simp] theorem State.modFc_far (s : State) (f : Core → Core) : (s.modFc f).far = s.far := rfl
@[simp] theorem State.modFc_farP (s : State) (f : Core → Core) : (s.modFc f).farP = s.farP := rfl
@[simp] theorem State.modFc_engines (s : State) (f : Core → Core) : (s.modFc f).engines = s.engines := rfl
@[simp] theorem State.modFc_maps (s : State) (f : Core → Core) : (s.modFc f).maps = s.maps := rfl
@[simp] theorem State.modFc_hdies (s : State) (f : Core → Core) : (s.modFc f).hdies = s.hdies := rfl
@[simp] theorem State.modFc_sched (s : State) (f : Core → Core) : (s.modFc f).sched = s.sched := rfl
@[simp] theorem State.modFc_tack (s : State) (f : Core → Core) : (s.modFc f).tack = s.tack := rfl
@[simp] theorem State.modFc_ports (s : State) (f : Core → Core) : (s.modFc f).ports = s.ports := rfl
@[simp] theorem State.modFc_boot (s : State) (f : Core → Core) : (s.modFc f).boot = s.boot := rfl
@[simp] theorem State.modFc_corr (s : State) (f : Core → Core) : (s.modFc f).corr = s.corr := rfl
@[simp] theorem State.modFc_imsic (s : State) (f : Core → Core) : (s.modFc f).imsic = s.imsic := rfl
@[simp] theorem State.modFc_pend (s : State) (f : Core → Core) : (s.modFc f).pend = s.pend := rfl
@[simp] theorem State.modFc_out (s : State) (f : Core → Core) : (s.modFc f).out = s.out := rfl
@[simp] theorem State.modFc_pcyc (s : State) (f : Core → Core) : (s.modFc f).pcyc = s.pcyc := rfl
@[simp] theorem State.modFc_focus (s : State) (f : Core → Core) : (s.modFc f).focus = s.focus := rfl
@[simp] theorem State.modFc_inputs (s : State) (f : Core → Core) : (s.modFc f).inputs = s.inputs := rfl
@[simp] theorem State.modFc_tcWait (s : State) (f : Core → Core) : (s.modFc f).tcWait = s.tcWait := rfl
@[simp] theorem State.modFc_free (s : State) (f : Core → Core) : (s.modFc f).free = s.free := rfl

/-! ### State.modFr -/

@[simp] theorem State.modFr_cores (s : State) (f : Region → Region) : (s.modFr f).cores = s.cores := rfl
@[simp] theorem State.modFr_near (s : State) (f : Region → Region) : (s.modFr f).near = s.near := rfl
@[simp] theorem State.modFr_nearP (s : State) (f : Region → Region) : (s.modFr f).nearP = s.nearP := rfl
@[simp] theorem State.modFr_mv (s : State) (f : Region → Region) : (s.modFr f).mv = s.mv := rfl
@[simp] theorem State.modFr_mvP (s : State) (f : Region → Region) : (s.modFr f).mvP = s.mvP := rfl
@[simp] theorem State.modFr_far (s : State) (f : Region → Region) : (s.modFr f).far = s.far := rfl
@[simp] theorem State.modFr_farP (s : State) (f : Region → Region) : (s.modFr f).farP = s.farP := rfl
@[simp] theorem State.modFr_engines (s : State) (f : Region → Region) : (s.modFr f).engines = s.engines := rfl
@[simp] theorem State.modFr_maps (s : State) (f : Region → Region) : (s.modFr f).maps = s.maps := rfl
@[simp] theorem State.modFr_hdies (s : State) (f : Region → Region) : (s.modFr f).hdies = s.hdies := rfl
@[simp] theorem State.modFr_sched (s : State) (f : Region → Region) : (s.modFr f).sched = s.sched := rfl
@[simp] theorem State.modFr_tack (s : State) (f : Region → Region) : (s.modFr f).tack = s.tack := rfl
@[simp] theorem State.modFr_ports (s : State) (f : Region → Region) : (s.modFr f).ports = s.ports := rfl
@[simp] theorem State.modFr_boot (s : State) (f : Region → Region) : (s.modFr f).boot = s.boot := rfl
@[simp] theorem State.modFr_corr (s : State) (f : Region → Region) : (s.modFr f).corr = s.corr := rfl
@[simp] theorem State.modFr_imsic (s : State) (f : Region → Region) : (s.modFr f).imsic = s.imsic := rfl
@[simp] theorem State.modFr_pend (s : State) (f : Region → Region) : (s.modFr f).pend = s.pend := rfl
@[simp] theorem State.modFr_out (s : State) (f : Region → Region) : (s.modFr f).out = s.out := rfl
@[simp] theorem State.modFr_pcyc (s : State) (f : Region → Region) : (s.modFr f).pcyc = s.pcyc := rfl
@[simp] theorem State.modFr_focus (s : State) (f : Region → Region) : (s.modFr f).focus = s.focus := rfl
@[simp] theorem State.modFr_inputs (s : State) (f : Region → Region) : (s.modFr f).inputs = s.inputs := rfl
@[simp] theorem State.modFr_tcWait (s : State) (f : Region → Region) : (s.modFr f).tcWait = s.tcWait := rfl
@[simp] theorem State.modFr_free (s : State) (f : Region → Region) : (s.modFr f).free = s.free := rfl

/-! ### State.send -/

@[simp] theorem State.send_cores (s : State) (m : Msg) : (s.send m).cores = s.cores := rfl
@[simp] theorem State.send_regions (s : State) (m : Msg) : (s.send m).regions = s.regions := rfl
@[simp] theorem State.send_near (s : State) (m : Msg) : (s.send m).near = s.near := rfl
@[simp] theorem State.send_nearP (s : State) (m : Msg) : (s.send m).nearP = s.nearP := rfl
@[simp] theorem State.send_mv (s : State) (m : Msg) : (s.send m).mv = s.mv := rfl
@[simp] theorem State.send_mvP (s : State) (m : Msg) : (s.send m).mvP = s.mvP := rfl
@[simp] theorem State.send_far (s : State) (m : Msg) : (s.send m).far = s.far := rfl
@[simp] theorem State.send_farP (s : State) (m : Msg) : (s.send m).farP = s.farP := rfl
@[simp] theorem State.send_engines (s : State) (m : Msg) : (s.send m).engines = s.engines := rfl
@[simp] theorem State.send_maps (s : State) (m : Msg) : (s.send m).maps = s.maps := rfl
@[simp] theorem State.send_hdies (s : State) (m : Msg) : (s.send m).hdies = s.hdies := rfl
@[simp] theorem State.send_sched (s : State) (m : Msg) : (s.send m).sched = s.sched := rfl
@[simp] theorem State.send_tack (s : State) (m : Msg) : (s.send m).tack = s.tack := rfl
@[simp] theorem State.send_ports (s : State) (m : Msg) : (s.send m).ports = s.ports := rfl
@[simp] theorem State.send_boot (s : State) (m : Msg) : (s.send m).boot = s.boot := rfl
@[simp] theorem State.send_corr (s : State) (m : Msg) : (s.send m).corr = s.corr := rfl
@[simp] theorem State.send_imsic (s : State) (m : Msg) : (s.send m).imsic = s.imsic := rfl
@[simp] theorem State.send_pend (s : State) (m : Msg) : (s.send m).pend = s.pend := rfl
@[simp] theorem State.send_pcyc (s : State) (m : Msg) : (s.send m).pcyc = s.pcyc := rfl
@[simp] theorem State.send_focus (s : State) (m : Msg) : (s.send m).focus = s.focus := rfl
@[simp] theorem State.send_inputs (s : State) (m : Msg) : (s.send m).inputs = s.inputs := rfl
@[simp] theorem State.send_tcWait (s : State) (m : Msg) : (s.send m).tcWait = s.tcWait := rfl
@[simp] theorem State.send_free (s : State) (m : Msg) : (s.send m).free = s.free := rfl

/-! ### State.msi -/

@[simp] theorem State.msi_cores (s : State) (e a : Nat) : (s.msi e a).cores = s.cores := rfl
@[simp] theorem State.msi_regions (s : State) (e a : Nat) : (s.msi e a).regions = s.regions := rfl
@[simp] theorem State.msi_near (s : State) (e a : Nat) : (s.msi e a).near = s.near := rfl
@[simp] theorem State.msi_nearP (s : State) (e a : Nat) : (s.msi e a).nearP = s.nearP := rfl
@[simp] theorem State.msi_mv (s : State) (e a : Nat) : (s.msi e a).mv = s.mv := rfl
@[simp] theorem State.msi_mvP (s : State) (e a : Nat) : (s.msi e a).mvP = s.mvP := rfl
@[simp] theorem State.msi_far (s : State) (e a : Nat) : (s.msi e a).far = s.far := rfl
@[simp] theorem State.msi_farP (s : State) (e a : Nat) : (s.msi e a).farP = s.farP := rfl
@[simp] theorem State.msi_engines (s : State) (e a : Nat) : (s.msi e a).engines = s.engines := rfl
@[simp] theorem State.msi_maps (s : State) (e a : Nat) : (s.msi e a).maps = s.maps := rfl
@[simp] theorem State.msi_hdies (s : State) (e a : Nat) : (s.msi e a).hdies = s.hdies := rfl
@[simp] theorem State.msi_sched (s : State) (e a : Nat) : (s.msi e a).sched = s.sched := rfl
@[simp] theorem State.msi_tack (s : State) (e a : Nat) : (s.msi e a).tack = s.tack := rfl
@[simp] theorem State.msi_ports (s : State) (e a : Nat) : (s.msi e a).ports = s.ports := rfl
@[simp] theorem State.msi_boot (s : State) (e a : Nat) : (s.msi e a).boot = s.boot := rfl
@[simp] theorem State.msi_corr (s : State) (e a : Nat) : (s.msi e a).corr = s.corr := rfl
@[simp] theorem State.msi_imsic (s : State) (e a : Nat) : (s.msi e a).imsic = s.imsic := rfl
@[simp] theorem State.msi_pcyc (s : State) (e a : Nat) : (s.msi e a).pcyc = s.pcyc := rfl
@[simp] theorem State.msi_focus (s : State) (e a : Nat) : (s.msi e a).focus = s.focus := rfl
@[simp] theorem State.msi_inputs (s : State) (e a : Nat) : (s.msi e a).inputs = s.inputs := rfl
@[simp] theorem State.msi_tcWait (s : State) (e a : Nat) : (s.msi e a).tcWait = s.tcWait := rfl
@[simp] theorem State.msi_free (s : State) (e a : Nat) : (s.msi e a).free = s.free := rfl

/-! ### State.raise -/

@[simp] theorem State.raise_near (s : State) (rg core cs : Nat) (f : FaultInfo) : (s.raise rg core cs f).near = s.near := rfl
@[simp] theorem State.raise_nearP (s : State) (rg core cs : Nat) (f : FaultInfo) : (s.raise rg core cs f).nearP = s.nearP := rfl
@[simp] theorem State.raise_mv (s : State) (rg core cs : Nat) (f : FaultInfo) : (s.raise rg core cs f).mv = s.mv := rfl
@[simp] theorem State.raise_mvP (s : State) (rg core cs : Nat) (f : FaultInfo) : (s.raise rg core cs f).mvP = s.mvP := rfl
@[simp] theorem State.raise_far (s : State) (rg core cs : Nat) (f : FaultInfo) : (s.raise rg core cs f).far = s.far := rfl
@[simp] theorem State.raise_farP (s : State) (rg core cs : Nat) (f : FaultInfo) : (s.raise rg core cs f).farP = s.farP := rfl
@[simp] theorem State.raise_engines (s : State) (rg core cs : Nat) (f : FaultInfo) : (s.raise rg core cs f).engines = s.engines := rfl
@[simp] theorem State.raise_maps (s : State) (rg core cs : Nat) (f : FaultInfo) : (s.raise rg core cs f).maps = s.maps := rfl
@[simp] theorem State.raise_hdies (s : State) (rg core cs : Nat) (f : FaultInfo) : (s.raise rg core cs f).hdies = s.hdies := rfl
@[simp] theorem State.raise_sched (s : State) (rg core cs : Nat) (f : FaultInfo) : (s.raise rg core cs f).sched = s.sched := rfl
@[simp] theorem State.raise_tack (s : State) (rg core cs : Nat) (f : FaultInfo) : (s.raise rg core cs f).tack = s.tack := rfl
@[simp] theorem State.raise_ports (s : State) (rg core cs : Nat) (f : FaultInfo) : (s.raise rg core cs f).ports = s.ports := rfl
@[simp] theorem State.raise_boot (s : State) (rg core cs : Nat) (f : FaultInfo) : (s.raise rg core cs f).boot = s.boot := rfl
@[simp] theorem State.raise_corr (s : State) (rg core cs : Nat) (f : FaultInfo) : (s.raise rg core cs f).corr = s.corr := rfl
@[simp] theorem State.raise_imsic (s : State) (rg core cs : Nat) (f : FaultInfo) : (s.raise rg core cs f).imsic = s.imsic := rfl
@[simp] theorem State.raise_pend (s : State) (rg core cs : Nat) (f : FaultInfo) : (s.raise rg core cs f).pend = s.pend := rfl
@[simp] theorem State.raise_out (s : State) (rg core cs : Nat) (f : FaultInfo) : (s.raise rg core cs f).out = s.out := rfl
@[simp] theorem State.raise_pcyc (s : State) (rg core cs : Nat) (f : FaultInfo) : (s.raise rg core cs f).pcyc = s.pcyc := rfl
@[simp] theorem State.raise_focus (s : State) (rg core cs : Nat) (f : FaultInfo) : (s.raise rg core cs f).focus = s.focus := rfl
@[simp] theorem State.raise_inputs (s : State) (rg core cs : Nat) (f : FaultInfo) : (s.raise rg core cs f).inputs = s.inputs := rfl
@[simp] theorem State.raise_tcWait (s : State) (rg core cs : Nat) (f : FaultInfo) : (s.raise rg core cs f).tcWait = s.tcWait := rfl
@[simp] theorem State.raise_free (s : State) (rg core cs : Nat) (f : FaultInfo) : (s.raise rg core cs f).free = s.free := rfl

/-! ### State.raiseHere -/

@[simp] theorem State.raiseHere_near (s : State) (f : FaultInfo) : (s.raiseHere f).near = s.near := rfl
@[simp] theorem State.raiseHere_nearP (s : State) (f : FaultInfo) : (s.raiseHere f).nearP = s.nearP := rfl
@[simp] theorem State.raiseHere_mv (s : State) (f : FaultInfo) : (s.raiseHere f).mv = s.mv := rfl
@[simp] theorem State.raiseHere_mvP (s : State) (f : FaultInfo) : (s.raiseHere f).mvP = s.mvP := rfl
@[simp] theorem State.raiseHere_far (s : State) (f : FaultInfo) : (s.raiseHere f).far = s.far := rfl
@[simp] theorem State.raiseHere_farP (s : State) (f : FaultInfo) : (s.raiseHere f).farP = s.farP := rfl
@[simp] theorem State.raiseHere_engines (s : State) (f : FaultInfo) : (s.raiseHere f).engines = s.engines := rfl
@[simp] theorem State.raiseHere_maps (s : State) (f : FaultInfo) : (s.raiseHere f).maps = s.maps := rfl
@[simp] theorem State.raiseHere_hdies (s : State) (f : FaultInfo) : (s.raiseHere f).hdies = s.hdies := rfl
@[simp] theorem State.raiseHere_sched (s : State) (f : FaultInfo) : (s.raiseHere f).sched = s.sched := rfl
@[simp] theorem State.raiseHere_tack (s : State) (f : FaultInfo) : (s.raiseHere f).tack = s.tack := rfl
@[simp] theorem State.raiseHere_ports (s : State) (f : FaultInfo) : (s.raiseHere f).ports = s.ports := rfl
@[simp] theorem State.raiseHere_boot (s : State) (f : FaultInfo) : (s.raiseHere f).boot = s.boot := rfl
@[simp] theorem State.raiseHere_corr (s : State) (f : FaultInfo) : (s.raiseHere f).corr = s.corr := rfl
@[simp] theorem State.raiseHere_imsic (s : State) (f : FaultInfo) : (s.raiseHere f).imsic = s.imsic := rfl
@[simp] theorem State.raiseHere_pend (s : State) (f : FaultInfo) : (s.raiseHere f).pend = s.pend := rfl
@[simp] theorem State.raiseHere_out (s : State) (f : FaultInfo) : (s.raiseHere f).out = s.out := rfl
@[simp] theorem State.raiseHere_pcyc (s : State) (f : FaultInfo) : (s.raiseHere f).pcyc = s.pcyc := rfl
@[simp] theorem State.raiseHere_focus (s : State) (f : FaultInfo) : (s.raiseHere f).focus = s.focus := rfl
@[simp] theorem State.raiseHere_inputs (s : State) (f : FaultInfo) : (s.raiseHere f).inputs = s.inputs := rfl
@[simp] theorem State.raiseHere_tcWait (s : State) (f : FaultInfo) : (s.raiseHere f).tcWait = s.tcWait := rfl
@[simp] theorem State.raiseHere_free (s : State) (f : FaultInfo) : (s.raiseHere f).free = s.free := rfl

/-! ### State.raiseOrigin -/

@[simp] theorem State.raiseOrigin_near (s : State) (rg cs : Nat) (f : FaultInfo) : (s.raiseOrigin rg cs f).near = s.near := rfl
@[simp] theorem State.raiseOrigin_nearP (s : State) (rg cs : Nat) (f : FaultInfo) : (s.raiseOrigin rg cs f).nearP = s.nearP := rfl
@[simp] theorem State.raiseOrigin_mv (s : State) (rg cs : Nat) (f : FaultInfo) : (s.raiseOrigin rg cs f).mv = s.mv := rfl
@[simp] theorem State.raiseOrigin_mvP (s : State) (rg cs : Nat) (f : FaultInfo) : (s.raiseOrigin rg cs f).mvP = s.mvP := rfl
@[simp] theorem State.raiseOrigin_far (s : State) (rg cs : Nat) (f : FaultInfo) : (s.raiseOrigin rg cs f).far = s.far := rfl
@[simp] theorem State.raiseOrigin_farP (s : State) (rg cs : Nat) (f : FaultInfo) : (s.raiseOrigin rg cs f).farP = s.farP := rfl
@[simp] theorem State.raiseOrigin_engines (s : State) (rg cs : Nat) (f : FaultInfo) : (s.raiseOrigin rg cs f).engines = s.engines := rfl
@[simp] theorem State.raiseOrigin_maps (s : State) (rg cs : Nat) (f : FaultInfo) : (s.raiseOrigin rg cs f).maps = s.maps := rfl
@[simp] theorem State.raiseOrigin_hdies (s : State) (rg cs : Nat) (f : FaultInfo) : (s.raiseOrigin rg cs f).hdies = s.hdies := rfl
@[simp] theorem State.raiseOrigin_sched (s : State) (rg cs : Nat) (f : FaultInfo) : (s.raiseOrigin rg cs f).sched = s.sched := rfl
@[simp] theorem State.raiseOrigin_tack (s : State) (rg cs : Nat) (f : FaultInfo) : (s.raiseOrigin rg cs f).tack = s.tack := rfl
@[simp] theorem State.raiseOrigin_ports (s : State) (rg cs : Nat) (f : FaultInfo) : (s.raiseOrigin rg cs f).ports = s.ports := rfl
@[simp] theorem State.raiseOrigin_boot (s : State) (rg cs : Nat) (f : FaultInfo) : (s.raiseOrigin rg cs f).boot = s.boot := rfl
@[simp] theorem State.raiseOrigin_corr (s : State) (rg cs : Nat) (f : FaultInfo) : (s.raiseOrigin rg cs f).corr = s.corr := rfl
@[simp] theorem State.raiseOrigin_imsic (s : State) (rg cs : Nat) (f : FaultInfo) : (s.raiseOrigin rg cs f).imsic = s.imsic := rfl
@[simp] theorem State.raiseOrigin_pend (s : State) (rg cs : Nat) (f : FaultInfo) : (s.raiseOrigin rg cs f).pend = s.pend := rfl
@[simp] theorem State.raiseOrigin_out (s : State) (rg cs : Nat) (f : FaultInfo) : (s.raiseOrigin rg cs f).out = s.out := rfl
@[simp] theorem State.raiseOrigin_pcyc (s : State) (rg cs : Nat) (f : FaultInfo) : (s.raiseOrigin rg cs f).pcyc = s.pcyc := rfl
@[simp] theorem State.raiseOrigin_focus (s : State) (rg cs : Nat) (f : FaultInfo) : (s.raiseOrigin rg cs f).focus = s.focus := rfl
@[simp] theorem State.raiseOrigin_inputs (s : State) (rg cs : Nat) (f : FaultInfo) : (s.raiseOrigin rg cs f).inputs = s.inputs := rfl
@[simp] theorem State.raiseOrigin_tcWait (s : State) (rg cs : Nat) (f : FaultInfo) : (s.raiseOrigin rg cs f).tcWait = s.tcWait := rfl
@[simp] theorem State.raiseOrigin_free (s : State) (rg cs : Nat) (f : FaultInfo) : (s.raiseOrigin rg cs f).free = s.free := rfl

/-! ### State.addCause -/

@[simp] theorem State.addCause_cores (s : State) (rg cs code : Nat) : (s.addCause rg cs code).cores = s.cores := rfl
@[simp] theorem State.addCause_near (s : State) (rg cs code : Nat) : (s.addCause rg cs code).near = s.near := rfl
@[simp] theorem State.addCause_nearP (s : State) (rg cs code : Nat) : (s.addCause rg cs code).nearP = s.nearP := rfl
@[simp] theorem State.addCause_mv (s : State) (rg cs code : Nat) : (s.addCause rg cs code).mv = s.mv := rfl
@[simp] theorem State.addCause_mvP (s : State) (rg cs code : Nat) : (s.addCause rg cs code).mvP = s.mvP := rfl
@[simp] theorem State.addCause_far (s : State) (rg cs code : Nat) : (s.addCause rg cs code).far = s.far := rfl
@[simp] theorem State.addCause_farP (s : State) (rg cs code : Nat) : (s.addCause rg cs code).farP = s.farP := rfl
@[simp] theorem State.addCause_engines (s : State) (rg cs code : Nat) : (s.addCause rg cs code).engines = s.engines := rfl
@[simp] theorem State.addCause_maps (s : State) (rg cs code : Nat) : (s.addCause rg cs code).maps = s.maps := rfl
@[simp] theorem State.addCause_hdies (s : State) (rg cs code : Nat) : (s.addCause rg cs code).hdies = s.hdies := rfl
@[simp] theorem State.addCause_sched (s : State) (rg cs code : Nat) : (s.addCause rg cs code).sched = s.sched := rfl
@[simp] theorem State.addCause_tack (s : State) (rg cs code : Nat) : (s.addCause rg cs code).tack = s.tack := rfl
@[simp] theorem State.addCause_ports (s : State) (rg cs code : Nat) : (s.addCause rg cs code).ports = s.ports := rfl
@[simp] theorem State.addCause_boot (s : State) (rg cs code : Nat) : (s.addCause rg cs code).boot = s.boot := rfl
@[simp] theorem State.addCause_corr (s : State) (rg cs code : Nat) : (s.addCause rg cs code).corr = s.corr := rfl
@[simp] theorem State.addCause_imsic (s : State) (rg cs code : Nat) : (s.addCause rg cs code).imsic = s.imsic := rfl
@[simp] theorem State.addCause_pend (s : State) (rg cs code : Nat) : (s.addCause rg cs code).pend = s.pend := rfl
@[simp] theorem State.addCause_out (s : State) (rg cs code : Nat) : (s.addCause rg cs code).out = s.out := rfl
@[simp] theorem State.addCause_pcyc (s : State) (rg cs code : Nat) : (s.addCause rg cs code).pcyc = s.pcyc := rfl
@[simp] theorem State.addCause_focus (s : State) (rg cs code : Nat) : (s.addCause rg cs code).focus = s.focus := rfl
@[simp] theorem State.addCause_inputs (s : State) (rg cs code : Nat) : (s.addCause rg cs code).inputs = s.inputs := rfl
@[simp] theorem State.addCause_tcWait (s : State) (rg cs code : Nat) : (s.addCause rg cs code).tcWait = s.tcWait := rfl
@[simp] theorem State.addCause_free (s : State) (rg cs code : Nat) : (s.addCause rg cs code).free = s.free := rfl

/-! ### Core.setUnit -/

@[simp] theorem Core.setUnit_regs (c : Core) (u : UnitId) (x : UnitSt) : (c.setUnit u x).regs = c.regs := rfl
@[simp] theorem Core.setUnit_sp (c : Core) (u : UnitId) (x : UnitSt) : (c.setUnit u x).sp = c.sp := rfl
@[simp] theorem Core.setUnit_tags (c : Core) (u : UnitId) (x : UnitSt) : (c.setUnit u x).tags = c.tags := rfl
@[simp] theorem Core.setUnit_tiles (c : Core) (u : UnitId) (x : UnitSt) : (c.setUnit u x).tiles = c.tiles := rfl
@[simp] theorem Core.setUnit_saved (c : Core) (u : UnitId) (x : UnitSt) : (c.setUnit u x).saved = c.saved := rfl
@[simp] theorem Core.setUnit_scr (c : Core) (u : UnitId) (x : UnitSt) : (c.setUnit u x).scr = c.scr := rfl
@[simp] theorem Core.setUnit_scrP (c : Core) (u : UnitId) (x : UnitSt) : (c.setUnit u x).scrP = c.scrP := rfl
@[simp] theorem Core.setUnit_imem (c : Core) (u : UnitId) (x : UnitSt) : (c.setUnit u x).imem = c.imem := rfl
@[simp] theorem Core.setUnit_imemP (c : Core) (u : UnitId) (x : UnitSt) : (c.setUnit u x).imemP = c.imemP := rfl
@[simp] theorem Core.setUnit_issue (c : Core) (u : UnitId) (x : UnitSt) : (c.setUnit u x).issue = c.issue := rfl
@[simp] theorem Core.setUnit_pc (c : Core) (u : UnitId) (x : UnitSt) : (c.setUnit u x).pc = c.pc := rfl
@[simp] theorem Core.setUnit_cur (c : Core) (u : UnitId) (x : UnitSt) : (c.setUnit u x).cur = c.cur := rfl
@[simp] theorem Core.setUnit_redir (c : Core) (u : UnitId) (x : UnitSt) : (c.setUnit u x).redir = c.redir := rfl
@[simp] theorem Core.setUnit_lands (c : Core) (u : UnitId) (x : UnitSt) : (c.setUnit u x).lands = c.lands := rfl
@[simp] theorem Core.setUnit_banks (c : Core) (u : UnitId) (x : UnitSt) : (c.setUnit u x).banks = c.banks := rfl
@[simp] theorem Core.setUnit_endW (c : Core) (u : UnitId) (x : UnitSt) : (c.setUnit u x).endW = c.endW := rfl
@[simp] theorem Core.setUnit_mx (c : Core) (u : UnitId) (x : UnitSt) : (c.setUnit u x).mx = c.mx := rfl
@[simp] theorem Core.setUnit_xf (c : Core) (u : UnitId) (x : UnitSt) : (c.setUnit u x).xf = c.xf := rfl
@[simp] theorem Core.setUnit_arr (c : Core) (u : UnitId) (x : UnitSt) : (c.setUnit u x).arr = c.arr := rfl
@[simp] theorem Core.setUnit_tce (c : Core) (u : UnitId) (x : UnitSt) : (c.setUnit u x).tce = c.tce := rfl
@[simp] theorem Core.setUnit_rr (c : Core) (u : UnitId) (x : UnitSt) : (c.setUnit u x).rr = c.rr := rfl
@[simp] theorem Core.setUnit_frec (c : Core) (u : UnitId) (x : UnitSt) : (c.setUnit u x).frec = c.frec := rfl
@[simp] theorem Core.setUnit_ovf (c : Core) (u : UnitId) (x : UnitSt) : (c.setUnit u x).ovf = c.ovf := rfl

/-! ### Core.writePort -/

@[simp] theorem Core.writePort_regs (c : Core) (u : UnitId) (k x : Nat) : (c.writePort u k x).regs = c.regs := rfl
@[simp] theorem Core.writePort_sp (c : Core) (u : UnitId) (k x : Nat) : (c.writePort u k x).sp = c.sp := rfl
@[simp] theorem Core.writePort_tags (c : Core) (u : UnitId) (k x : Nat) : (c.writePort u k x).tags = c.tags := rfl
@[simp] theorem Core.writePort_tiles (c : Core) (u : UnitId) (k x : Nat) : (c.writePort u k x).tiles = c.tiles := rfl
@[simp] theorem Core.writePort_saved (c : Core) (u : UnitId) (k x : Nat) : (c.writePort u k x).saved = c.saved := rfl
@[simp] theorem Core.writePort_scr (c : Core) (u : UnitId) (k x : Nat) : (c.writePort u k x).scr = c.scr := rfl
@[simp] theorem Core.writePort_scrP (c : Core) (u : UnitId) (k x : Nat) : (c.writePort u k x).scrP = c.scrP := rfl
@[simp] theorem Core.writePort_imem (c : Core) (u : UnitId) (k x : Nat) : (c.writePort u k x).imem = c.imem := rfl
@[simp] theorem Core.writePort_imemP (c : Core) (u : UnitId) (k x : Nat) : (c.writePort u k x).imemP = c.imemP := rfl
@[simp] theorem Core.writePort_issue (c : Core) (u : UnitId) (k x : Nat) : (c.writePort u k x).issue = c.issue := rfl
@[simp] theorem Core.writePort_pc (c : Core) (u : UnitId) (k x : Nat) : (c.writePort u k x).pc = c.pc := rfl
@[simp] theorem Core.writePort_cur (c : Core) (u : UnitId) (k x : Nat) : (c.writePort u k x).cur = c.cur := rfl
@[simp] theorem Core.writePort_redir (c : Core) (u : UnitId) (k x : Nat) : (c.writePort u k x).redir = c.redir := rfl
@[simp] theorem Core.writePort_lands (c : Core) (u : UnitId) (k x : Nat) : (c.writePort u k x).lands = c.lands := rfl
@[simp] theorem Core.writePort_banks (c : Core) (u : UnitId) (k x : Nat) : (c.writePort u k x).banks = c.banks := rfl
@[simp] theorem Core.writePort_endW (c : Core) (u : UnitId) (k x : Nat) : (c.writePort u k x).endW = c.endW := rfl
@[simp] theorem Core.writePort_mx (c : Core) (u : UnitId) (k x : Nat) : (c.writePort u k x).mx = c.mx := rfl
@[simp] theorem Core.writePort_xf (c : Core) (u : UnitId) (k x : Nat) : (c.writePort u k x).xf = c.xf := rfl
@[simp] theorem Core.writePort_arr (c : Core) (u : UnitId) (k x : Nat) : (c.writePort u k x).arr = c.arr := rfl
@[simp] theorem Core.writePort_tce (c : Core) (u : UnitId) (k x : Nat) : (c.writePort u k x).tce = c.tce := rfl
@[simp] theorem Core.writePort_rr (c : Core) (u : UnitId) (k x : Nat) : (c.writePort u k x).rr = c.rr := rfl
@[simp] theorem Core.writePort_frec (c : Core) (u : UnitId) (k x : Nat) : (c.writePort u k x).frec = c.frec := rfl
@[simp] theorem Core.writePort_ovf (c : Core) (u : UnitId) (k x : Nat) : (c.writePort u k x).ovf = c.ovf := rfl

/-! ### Core.occupy -/

@[simp] theorem Core.occupy_regs (c : Core) (u : UnitId) (t n : Nat) : (c.occupy u t n).regs = c.regs := rfl
@[simp] theorem Core.occupy_sp (c : Core) (u : UnitId) (t n : Nat) : (c.occupy u t n).sp = c.sp := rfl
@[simp] theorem Core.occupy_tags (c : Core) (u : UnitId) (t n : Nat) : (c.occupy u t n).tags = c.tags := rfl
@[simp] theorem Core.occupy_tiles (c : Core) (u : UnitId) (t n : Nat) : (c.occupy u t n).tiles = c.tiles := rfl
@[simp] theorem Core.occupy_saved (c : Core) (u : UnitId) (t n : Nat) : (c.occupy u t n).saved = c.saved := rfl
@[simp] theorem Core.occupy_scr (c : Core) (u : UnitId) (t n : Nat) : (c.occupy u t n).scr = c.scr := rfl
@[simp] theorem Core.occupy_scrP (c : Core) (u : UnitId) (t n : Nat) : (c.occupy u t n).scrP = c.scrP := rfl
@[simp] theorem Core.occupy_imem (c : Core) (u : UnitId) (t n : Nat) : (c.occupy u t n).imem = c.imem := rfl
@[simp] theorem Core.occupy_imemP (c : Core) (u : UnitId) (t n : Nat) : (c.occupy u t n).imemP = c.imemP := rfl
@[simp] theorem Core.occupy_issue (c : Core) (u : UnitId) (t n : Nat) : (c.occupy u t n).issue = c.issue := rfl
@[simp] theorem Core.occupy_pc (c : Core) (u : UnitId) (t n : Nat) : (c.occupy u t n).pc = c.pc := rfl
@[simp] theorem Core.occupy_cur (c : Core) (u : UnitId) (t n : Nat) : (c.occupy u t n).cur = c.cur := rfl
@[simp] theorem Core.occupy_redir (c : Core) (u : UnitId) (t n : Nat) : (c.occupy u t n).redir = c.redir := rfl
@[simp] theorem Core.occupy_lands (c : Core) (u : UnitId) (t n : Nat) : (c.occupy u t n).lands = c.lands := rfl
@[simp] theorem Core.occupy_banks (c : Core) (u : UnitId) (t n : Nat) : (c.occupy u t n).banks = c.banks := rfl
@[simp] theorem Core.occupy_endW (c : Core) (u : UnitId) (t n : Nat) : (c.occupy u t n).endW = c.endW := rfl
@[simp] theorem Core.occupy_mx (c : Core) (u : UnitId) (t n : Nat) : (c.occupy u t n).mx = c.mx := rfl
@[simp] theorem Core.occupy_xf (c : Core) (u : UnitId) (t n : Nat) : (c.occupy u t n).xf = c.xf := rfl
@[simp] theorem Core.occupy_arr (c : Core) (u : UnitId) (t n : Nat) : (c.occupy u t n).arr = c.arr := rfl
@[simp] theorem Core.occupy_tce (c : Core) (u : UnitId) (t n : Nat) : (c.occupy u t n).tce = c.tce := rfl
@[simp] theorem Core.occupy_rr (c : Core) (u : UnitId) (t n : Nat) : (c.occupy u t n).rr = c.rr := rfl
@[simp] theorem Core.occupy_frec (c : Core) (u : UnitId) (t n : Nat) : (c.occupy u t n).frec = c.frec := rfl
@[simp] theorem Core.occupy_ovf (c : Core) (u : UnitId) (t n : Nat) : (c.occupy u t n).ovf = c.ovf := rfl

/-! ### Core.land -/

@[simp] theorem Core.land_regs (c : Core) (x : Landing) : (c.land x).regs = c.regs := rfl
@[simp] theorem Core.land_units (c : Core) (x : Landing) : (c.land x).units = c.units := rfl
@[simp] theorem Core.land_sp (c : Core) (x : Landing) : (c.land x).sp = c.sp := rfl
@[simp] theorem Core.land_tags (c : Core) (x : Landing) : (c.land x).tags = c.tags := rfl
@[simp] theorem Core.land_tiles (c : Core) (x : Landing) : (c.land x).tiles = c.tiles := rfl
@[simp] theorem Core.land_saved (c : Core) (x : Landing) : (c.land x).saved = c.saved := rfl
@[simp] theorem Core.land_scr (c : Core) (x : Landing) : (c.land x).scr = c.scr := rfl
@[simp] theorem Core.land_scrP (c : Core) (x : Landing) : (c.land x).scrP = c.scrP := rfl
@[simp] theorem Core.land_imem (c : Core) (x : Landing) : (c.land x).imem = c.imem := rfl
@[simp] theorem Core.land_imemP (c : Core) (x : Landing) : (c.land x).imemP = c.imemP := rfl
@[simp] theorem Core.land_issue (c : Core) (x : Landing) : (c.land x).issue = c.issue := rfl
@[simp] theorem Core.land_pc (c : Core) (x : Landing) : (c.land x).pc = c.pc := rfl
@[simp] theorem Core.land_cur (c : Core) (x : Landing) : (c.land x).cur = c.cur := rfl
@[simp] theorem Core.land_redir (c : Core) (x : Landing) : (c.land x).redir = c.redir := rfl
@[simp] theorem Core.land_banks (c : Core) (x : Landing) : (c.land x).banks = c.banks := rfl
@[simp] theorem Core.land_endW (c : Core) (x : Landing) : (c.land x).endW = c.endW := rfl
@[simp] theorem Core.land_mx (c : Core) (x : Landing) : (c.land x).mx = c.mx := rfl
@[simp] theorem Core.land_xf (c : Core) (x : Landing) : (c.land x).xf = c.xf := rfl
@[simp] theorem Core.land_arr (c : Core) (x : Landing) : (c.land x).arr = c.arr := rfl
@[simp] theorem Core.land_tce (c : Core) (x : Landing) : (c.land x).tce = c.tce := rfl
@[simp] theorem Core.land_rr (c : Core) (x : Landing) : (c.land x).rr = c.rr := rfl
@[simp] theorem Core.land_frec (c : Core) (x : Landing) : (c.land x).frec = c.frec := rfl
@[simp] theorem Core.land_ovf (c : Core) (x : Landing) : (c.land x).ovf = c.ovf := rfl

/-! ### Core.landLatch -/

@[simp] theorem Core.landLatch_regs (c : Core) (u : UnitId) (hi : Bool) (t l x : Nat) (fl : Flags) : (c.landLatch u hi t l x fl).regs = c.regs := rfl
@[simp] theorem Core.landLatch_units (c : Core) (u : UnitId) (hi : Bool) (t l x : Nat) (fl : Flags) : (c.landLatch u hi t l x fl).units = c.units := rfl
@[simp] theorem Core.landLatch_sp (c : Core) (u : UnitId) (hi : Bool) (t l x : Nat) (fl : Flags) : (c.landLatch u hi t l x fl).sp = c.sp := rfl
@[simp] theorem Core.landLatch_tags (c : Core) (u : UnitId) (hi : Bool) (t l x : Nat) (fl : Flags) : (c.landLatch u hi t l x fl).tags = c.tags := rfl
@[simp] theorem Core.landLatch_tiles (c : Core) (u : UnitId) (hi : Bool) (t l x : Nat) (fl : Flags) : (c.landLatch u hi t l x fl).tiles = c.tiles := rfl
@[simp] theorem Core.landLatch_saved (c : Core) (u : UnitId) (hi : Bool) (t l x : Nat) (fl : Flags) : (c.landLatch u hi t l x fl).saved = c.saved := rfl
@[simp] theorem Core.landLatch_scr (c : Core) (u : UnitId) (hi : Bool) (t l x : Nat) (fl : Flags) : (c.landLatch u hi t l x fl).scr = c.scr := rfl
@[simp] theorem Core.landLatch_scrP (c : Core) (u : UnitId) (hi : Bool) (t l x : Nat) (fl : Flags) : (c.landLatch u hi t l x fl).scrP = c.scrP := rfl
@[simp] theorem Core.landLatch_imem (c : Core) (u : UnitId) (hi : Bool) (t l x : Nat) (fl : Flags) : (c.landLatch u hi t l x fl).imem = c.imem := rfl
@[simp] theorem Core.landLatch_imemP (c : Core) (u : UnitId) (hi : Bool) (t l x : Nat) (fl : Flags) : (c.landLatch u hi t l x fl).imemP = c.imemP := rfl
@[simp] theorem Core.landLatch_issue (c : Core) (u : UnitId) (hi : Bool) (t l x : Nat) (fl : Flags) : (c.landLatch u hi t l x fl).issue = c.issue := rfl
@[simp] theorem Core.landLatch_pc (c : Core) (u : UnitId) (hi : Bool) (t l x : Nat) (fl : Flags) : (c.landLatch u hi t l x fl).pc = c.pc := rfl
@[simp] theorem Core.landLatch_cur (c : Core) (u : UnitId) (hi : Bool) (t l x : Nat) (fl : Flags) : (c.landLatch u hi t l x fl).cur = c.cur := rfl
@[simp] theorem Core.landLatch_redir (c : Core) (u : UnitId) (hi : Bool) (t l x : Nat) (fl : Flags) : (c.landLatch u hi t l x fl).redir = c.redir := rfl
@[simp] theorem Core.landLatch_banks (c : Core) (u : UnitId) (hi : Bool) (t l x : Nat) (fl : Flags) : (c.landLatch u hi t l x fl).banks = c.banks := rfl
@[simp] theorem Core.landLatch_endW (c : Core) (u : UnitId) (hi : Bool) (t l x : Nat) (fl : Flags) : (c.landLatch u hi t l x fl).endW = c.endW := rfl
@[simp] theorem Core.landLatch_mx (c : Core) (u : UnitId) (hi : Bool) (t l x : Nat) (fl : Flags) : (c.landLatch u hi t l x fl).mx = c.mx := rfl
@[simp] theorem Core.landLatch_xf (c : Core) (u : UnitId) (hi : Bool) (t l x : Nat) (fl : Flags) : (c.landLatch u hi t l x fl).xf = c.xf := rfl
@[simp] theorem Core.landLatch_arr (c : Core) (u : UnitId) (hi : Bool) (t l x : Nat) (fl : Flags) : (c.landLatch u hi t l x fl).arr = c.arr := rfl
@[simp] theorem Core.landLatch_tce (c : Core) (u : UnitId) (hi : Bool) (t l x : Nat) (fl : Flags) : (c.landLatch u hi t l x fl).tce = c.tce := rfl
@[simp] theorem Core.landLatch_rr (c : Core) (u : UnitId) (hi : Bool) (t l x : Nat) (fl : Flags) : (c.landLatch u hi t l x fl).rr = c.rr := rfl
@[simp] theorem Core.landLatch_frec (c : Core) (u : UnitId) (hi : Bool) (t l x : Nat) (fl : Flags) : (c.landLatch u hi t l x fl).frec = c.frec := rfl
@[simp] theorem Core.landLatch_ovf (c : Core) (u : UnitId) (hi : Bool) (t l x : Nat) (fl : Flags) : (c.landLatch u hi t l x fl).ovf = c.ovf := rfl

/-! ### Core.queueW -/

@[simp] theorem Core.queueW_regs (c : Core) (w : EndW) : (c.queueW w).regs = c.regs := rfl
@[simp] theorem Core.queueW_units (c : Core) (w : EndW) : (c.queueW w).units = c.units := rfl
@[simp] theorem Core.queueW_sp (c : Core) (w : EndW) : (c.queueW w).sp = c.sp := rfl
@[simp] theorem Core.queueW_tags (c : Core) (w : EndW) : (c.queueW w).tags = c.tags := rfl
@[simp] theorem Core.queueW_tiles (c : Core) (w : EndW) : (c.queueW w).tiles = c.tiles := rfl
@[simp] theorem Core.queueW_saved (c : Core) (w : EndW) : (c.queueW w).saved = c.saved := rfl
@[simp] theorem Core.queueW_scr (c : Core) (w : EndW) : (c.queueW w).scr = c.scr := rfl
@[simp] theorem Core.queueW_scrP (c : Core) (w : EndW) : (c.queueW w).scrP = c.scrP := rfl
@[simp] theorem Core.queueW_imem (c : Core) (w : EndW) : (c.queueW w).imem = c.imem := rfl
@[simp] theorem Core.queueW_imemP (c : Core) (w : EndW) : (c.queueW w).imemP = c.imemP := rfl
@[simp] theorem Core.queueW_issue (c : Core) (w : EndW) : (c.queueW w).issue = c.issue := rfl
@[simp] theorem Core.queueW_pc (c : Core) (w : EndW) : (c.queueW w).pc = c.pc := rfl
@[simp] theorem Core.queueW_cur (c : Core) (w : EndW) : (c.queueW w).cur = c.cur := rfl
@[simp] theorem Core.queueW_redir (c : Core) (w : EndW) : (c.queueW w).redir = c.redir := rfl
@[simp] theorem Core.queueW_lands (c : Core) (w : EndW) : (c.queueW w).lands = c.lands := rfl
@[simp] theorem Core.queueW_banks (c : Core) (w : EndW) : (c.queueW w).banks = c.banks := rfl
@[simp] theorem Core.queueW_mx (c : Core) (w : EndW) : (c.queueW w).mx = c.mx := rfl
@[simp] theorem Core.queueW_xf (c : Core) (w : EndW) : (c.queueW w).xf = c.xf := rfl
@[simp] theorem Core.queueW_arr (c : Core) (w : EndW) : (c.queueW w).arr = c.arr := rfl
@[simp] theorem Core.queueW_tce (c : Core) (w : EndW) : (c.queueW w).tce = c.tce := rfl
@[simp] theorem Core.queueW_rr (c : Core) (w : EndW) : (c.queueW w).rr = c.rr := rfl
@[simp] theorem Core.queueW_frec (c : Core) (w : EndW) : (c.queueW w).frec = c.frec := rfl
@[simp] theorem Core.queueW_ovf (c : Core) (w : EndW) : (c.queueW w).ovf = c.ovf := rfl

/-! ### Core.setFlags -/

@[simp] theorem Core.setFlags_regs (c : Core) (f : Flags) : (c.setFlags f).regs = c.regs := rfl
@[simp] theorem Core.setFlags_units (c : Core) (f : Flags) : (c.setFlags f).units = c.units := rfl
@[simp] theorem Core.setFlags_tags (c : Core) (f : Flags) : (c.setFlags f).tags = c.tags := rfl
@[simp] theorem Core.setFlags_tiles (c : Core) (f : Flags) : (c.setFlags f).tiles = c.tiles := rfl
@[simp] theorem Core.setFlags_saved (c : Core) (f : Flags) : (c.setFlags f).saved = c.saved := rfl
@[simp] theorem Core.setFlags_scr (c : Core) (f : Flags) : (c.setFlags f).scr = c.scr := rfl
@[simp] theorem Core.setFlags_scrP (c : Core) (f : Flags) : (c.setFlags f).scrP = c.scrP := rfl
@[simp] theorem Core.setFlags_imem (c : Core) (f : Flags) : (c.setFlags f).imem = c.imem := rfl
@[simp] theorem Core.setFlags_imemP (c : Core) (f : Flags) : (c.setFlags f).imemP = c.imemP := rfl
@[simp] theorem Core.setFlags_issue (c : Core) (f : Flags) : (c.setFlags f).issue = c.issue := rfl
@[simp] theorem Core.setFlags_pc (c : Core) (f : Flags) : (c.setFlags f).pc = c.pc := rfl
@[simp] theorem Core.setFlags_cur (c : Core) (f : Flags) : (c.setFlags f).cur = c.cur := rfl
@[simp] theorem Core.setFlags_redir (c : Core) (f : Flags) : (c.setFlags f).redir = c.redir := rfl
@[simp] theorem Core.setFlags_lands (c : Core) (f : Flags) : (c.setFlags f).lands = c.lands := rfl
@[simp] theorem Core.setFlags_banks (c : Core) (f : Flags) : (c.setFlags f).banks = c.banks := rfl
@[simp] theorem Core.setFlags_endW (c : Core) (f : Flags) : (c.setFlags f).endW = c.endW := rfl
@[simp] theorem Core.setFlags_mx (c : Core) (f : Flags) : (c.setFlags f).mx = c.mx := rfl
@[simp] theorem Core.setFlags_xf (c : Core) (f : Flags) : (c.setFlags f).xf = c.xf := rfl
@[simp] theorem Core.setFlags_arr (c : Core) (f : Flags) : (c.setFlags f).arr = c.arr := rfl
@[simp] theorem Core.setFlags_tce (c : Core) (f : Flags) : (c.setFlags f).tce = c.tce := rfl
@[simp] theorem Core.setFlags_rr (c : Core) (f : Flags) : (c.setFlags f).rr = c.rr := rfl
@[simp] theorem Core.setFlags_frec (c : Core) (f : Flags) : (c.setFlags f).frec = c.frec := rfl
@[simp] theorem Core.setFlags_ovf (c : Core) (f : Flags) : (c.setFlags f).ovf = c.ovf := rfl

/-! ### Core.notify -/

@[simp] theorem Core.notify_regs (c : Core) (n : Nat) : (c.notify n).regs = c.regs := rfl
@[simp] theorem Core.notify_units (c : Core) (n : Nat) : (c.notify n).units = c.units := rfl
@[simp] theorem Core.notify_tags (c : Core) (n : Nat) : (c.notify n).tags = c.tags := rfl
@[simp] theorem Core.notify_tiles (c : Core) (n : Nat) : (c.notify n).tiles = c.tiles := rfl
@[simp] theorem Core.notify_saved (c : Core) (n : Nat) : (c.notify n).saved = c.saved := rfl
@[simp] theorem Core.notify_scr (c : Core) (n : Nat) : (c.notify n).scr = c.scr := rfl
@[simp] theorem Core.notify_scrP (c : Core) (n : Nat) : (c.notify n).scrP = c.scrP := rfl
@[simp] theorem Core.notify_imem (c : Core) (n : Nat) : (c.notify n).imem = c.imem := rfl
@[simp] theorem Core.notify_imemP (c : Core) (n : Nat) : (c.notify n).imemP = c.imemP := rfl
@[simp] theorem Core.notify_issue (c : Core) (n : Nat) : (c.notify n).issue = c.issue := rfl
@[simp] theorem Core.notify_pc (c : Core) (n : Nat) : (c.notify n).pc = c.pc := rfl
@[simp] theorem Core.notify_cur (c : Core) (n : Nat) : (c.notify n).cur = c.cur := rfl
@[simp] theorem Core.notify_redir (c : Core) (n : Nat) : (c.notify n).redir = c.redir := rfl
@[simp] theorem Core.notify_lands (c : Core) (n : Nat) : (c.notify n).lands = c.lands := rfl
@[simp] theorem Core.notify_banks (c : Core) (n : Nat) : (c.notify n).banks = c.banks := rfl
@[simp] theorem Core.notify_endW (c : Core) (n : Nat) : (c.notify n).endW = c.endW := rfl
@[simp] theorem Core.notify_mx (c : Core) (n : Nat) : (c.notify n).mx = c.mx := rfl
@[simp] theorem Core.notify_xf (c : Core) (n : Nat) : (c.notify n).xf = c.xf := rfl
@[simp] theorem Core.notify_arr (c : Core) (n : Nat) : (c.notify n).arr = c.arr := rfl
@[simp] theorem Core.notify_tce (c : Core) (n : Nat) : (c.notify n).tce = c.tce := rfl
@[simp] theorem Core.notify_rr (c : Core) (n : Nat) : (c.notify n).rr = c.rr := rfl
@[simp] theorem Core.notify_frec (c : Core) (n : Nat) : (c.notify n).frec = c.frec := rfl
@[simp] theorem Core.notify_ovf (c : Core) (n : Nat) : (c.notify n).ovf = c.ovf := rfl

/-! ### Core.endStitch -/

@[simp] theorem Core.endStitch_units (c : Core) : (c.endStitch).units = c.units := rfl
@[simp] theorem Core.endStitch_sp (c : Core) : (c.endStitch).sp = c.sp := rfl
@[simp] theorem Core.endStitch_tags (c : Core) : (c.endStitch).tags = c.tags := rfl
@[simp] theorem Core.endStitch_tiles (c : Core) : (c.endStitch).tiles = c.tiles := rfl
@[simp] theorem Core.endStitch_saved (c : Core) : (c.endStitch).saved = c.saved := rfl
@[simp] theorem Core.endStitch_scr (c : Core) : (c.endStitch).scr = c.scr := rfl
@[simp] theorem Core.endStitch_scrP (c : Core) : (c.endStitch).scrP = c.scrP := rfl
@[simp] theorem Core.endStitch_imem (c : Core) : (c.endStitch).imem = c.imem := rfl
@[simp] theorem Core.endStitch_imemP (c : Core) : (c.endStitch).imemP = c.imemP := rfl
@[simp] theorem Core.endStitch_issue (c : Core) : (c.endStitch).issue = c.issue := rfl
@[simp] theorem Core.endStitch_pc (c : Core) : (c.endStitch).pc = c.pc := rfl
@[simp] theorem Core.endStitch_cur (c : Core) : (c.endStitch).cur = c.cur := rfl
@[simp] theorem Core.endStitch_redir (c : Core) : (c.endStitch).redir = c.redir := rfl
@[simp] theorem Core.endStitch_lands (c : Core) : (c.endStitch).lands = c.lands := rfl
@[simp] theorem Core.endStitch_banks (c : Core) : (c.endStitch).banks = c.banks := rfl
@[simp] theorem Core.endStitch_mx (c : Core) : (c.endStitch).mx = c.mx := rfl
@[simp] theorem Core.endStitch_xf (c : Core) : (c.endStitch).xf = c.xf := rfl
@[simp] theorem Core.endStitch_arr (c : Core) : (c.endStitch).arr = c.arr := rfl
@[simp] theorem Core.endStitch_tce (c : Core) : (c.endStitch).tce = c.tce := rfl
@[simp] theorem Core.endStitch_rr (c : Core) : (c.endStitch).rr = c.rr := rfl
@[simp] theorem Core.endStitch_frec (c : Core) : (c.endStitch).frec = c.frec := rfl
@[simp] theorem Core.endStitch_ovf (c : Core) : (c.endStitch).ovf = c.ovf := rfl

/-! ### Accessors after updates -/

theorem State.core_setCore (s : State) (c d : Nat) (x : Core) : (s.setCore c x).core d = if c = d then x else s.core d := mgetD_mset _ _ _ _ _
@[simp] theorem State.core_setCore_same (s : State) (c : Nat) (x : Core) : (s.setCore c x).core c = x := by simp [State.core_setCore]
theorem State.core_modCore (s : State) (c d : Nat) (f : Core → Core) : (s.modCore c f).core d = if c = d then f (s.core c) else s.core d :=
  s.core_setCore c d _
@[simp] theorem State.core_modCore_same (s : State) (c : Nat) (f : Core → Core) : (s.modCore c f).core c = f (s.core c) := by simp [State.core_modCore]
@[simp] theorem State.setCore_setCore (s : State) (c : Nat) (x y : Core) : (s.setCore c x).setCore c y = s.setCore c y := by
  simp [State.setCore, mset_mset]
@[simp] theorem State.setFc_setFc (s : State) (x y : Core) : (s.setFc x).setFc y = s.setFc y := s.setCore_setCore _ x y
@[simp] theorem State.setFc_modFc (s : State) (f : Core → Core) (y : Core) : (s.modFc f).setFc y = s.setFc y := s.setCore_setCore _ _ y
theorem State.modFc_setFc (s : State) (x : Core) (f : Core → Core) : (s.setFc x).modFc f = s.setFc (f x) := by
  simp [State.modFc, State.modCore, State.setFc]
theorem State.rgn_setRgn (s : State) (n m : Nat) (r : Region) : (s.setRgn n r).rgn m = if n = m then r else s.rgn m := mgetD_mset _ _ _ _ _
@[simp] theorem State.rgn_setRgn_same (s : State) (n : Nat) (r : Region) : (s.setRgn n r).rgn n = r := by simp [State.rgn_setRgn]
theorem State.rgn_modRgn (s : State) (n m : Nat) (f : Region → Region) : (s.modRgn n f).rgn m = if n = m then f (s.rgn n) else s.rgn m :=
  s.rgn_setRgn n m _
@[simp] theorem State.rgn_modRgn_same (s : State) (n : Nat) (f : Region → Region) : (s.modRgn n f).rgn n = f (s.rgn n) := by simp [State.rgn_modRgn]
@[simp] theorem State.core_setRgn (s : State) (n c : Nat) (r : Region) : (s.setRgn n r).core c = s.core c := rfl
@[simp] theorem State.core_modRgn (s : State) (n c : Nat) (f : Region → Region) : (s.modRgn n f).core c = s.core c := rfl
@[simp] theorem State.rgn_setCore (s : State) (n c : Nat) (x : Core) : (s.setCore c x).rgn n = s.rgn n := rfl
@[simp] theorem State.rgn_modCore (s : State) (n c : Nat) (f : Core → Core) : (s.modCore c f).rgn n = s.rgn n := rfl
@[simp] theorem State.rgn_send (s : State) (n : Nat) (m : Msg) : (s.send m).rgn n = s.rgn n := rfl
@[simp] theorem State.core_send (s : State) (n : Nat) (m : Msg) : (s.send m).core n = s.core n := rfl
@[simp] theorem State.rgn_msi (s : State) (n e a : Nat) : (s.msi e a).rgn n = s.rgn n := rfl
@[simp] theorem State.core_msi (s : State) (n e a : Nat) : (s.msi e a).core n = s.core n := rfl
@[simp] theorem State.fc_setFc (s : State) (x : Core) : (s.setFc x).fc = x := s.core_setCore_same _ _
@[simp] theorem State.fc_modFc (s : State) (f : Core → Core) : (s.modFc f).fc = f s.fc := s.core_modCore_same _ _
@[simp] theorem State.fr_setFc (s : State) (x : Core) : (s.setFc x).fr = s.fr := rfl
@[simp] theorem State.fr_modFc (s : State) (f : Core → Core) : (s.modFc f).fr = s.fr := rfl
@[simp] theorem State.sc_setFc (s : State) (x : Core) : (s.setFc x).sc = s.sc := rfl
@[simp] theorem State.sc_modFc (s : State) (f : Core → Core) : (s.modFc f).sc = s.sc := rfl
@[simp] theorem State.fr_modFr (s : State) (f : Region → Region) : (s.modFr f).fr = f s.fr := s.rgn_modRgn_same _ _
@[simp] theorem State.fc_modFr (s : State) (f : Region → Region) : (s.modFr f).fc = s.fc := rfl

theorem UnitId.fin_injective {u v : UnitId} (h : UnitId.fin u = UnitId.fin v) : u = v := by
  cases u <;> cases v <;> first | rfl | exact absurd h (by decide)

theorem Core.unit_setUnit (c : Core) (u v : UnitId) (x : UnitSt) : (c.setUnit u x).unit v = if u = v then x else c.unit v := by
  unfold Core.unit Core.setUnit
  by_cases h : u = v
  · subst h
    simp only [if_true]
    show (c.units.set (UnitId.fin u).val x)[(UnitId.fin u).val] = x
    exact Vector.getElem_set_self _
  · have h1 : (UnitId.fin u).val ≠ (UnitId.fin v).val := fun e => h (UnitId.fin_injective (Fin.ext e))
    simp only [h, if_false]
    show (c.units.set (UnitId.fin u).val x)[(UnitId.fin v).val] = c.units[(UnitId.fin v).val]
    exact Vector.getElem_set_ne _ _ h1
@[simp] theorem Core.unit_setUnit_same (c : Core) (u : UnitId) (x : UnitSt) : (c.setUnit u x).unit u = x := by simp [Core.unit_setUnit]
theorem Core.unit_setUnit_ne (c : Core) {u v : UnitId} (x : UnitSt) (h : u ≠ v) : (c.setUnit u x).unit v = c.unit v := by
  simp [Core.unit_setUnit, h]
@[simp] theorem Core.unit_land (c : Core) (v : UnitId) (x : Landing) : (c.land x).unit v = c.unit v := rfl
@[simp] theorem Core.unit_landLatch (c : Core) (v u : UnitId) (hi : Bool) (t l x : Nat) (fl : Flags) : (c.landLatch u hi t l x fl).unit v = c.unit v := rfl
@[simp] theorem Core.unit_queueW (c : Core) (v : UnitId) (w : EndW) : (c.queueW w).unit v = c.unit v := rfl
theorem Core.unit_writePort_ne (c : Core) {u v : UnitId} (k x : Nat) (h : u ≠ v) : (c.writePort u k x).unit v = c.unit v :=
  Core.unit_setUnit_ne c _ h
theorem Core.unit_occupy_ne (c : Core) {u v : UnitId} (t n : Nat) (h : u ≠ v) : (c.occupy u t n).unit v = c.unit v :=
  Core.unit_setUnit_ne c _ h
@[simp] theorem Core.unit_occupy_same (c : Core) (u : UnitId) (t n : Nat) : (c.occupy u t n).unit u = { c.unit u with trig := t, occ := n } :=
  Core.unit_setUnit_same c u _
@[simp] theorem Core.lands_land (c : Core) (x : Landing) : (c.land x).lands = c.lands ++ [x] := rfl
@[simp] theorem Core.lands_landLatch (c : Core) (u : UnitId) (hi : Bool) (t l x : Nat) (fl : Flags) :
    (c.landLatch u hi t l x fl).lands = c.lands ++ [{ due := t + l, trig := t, tgt := .latch u hi (BitVec.ofNat 2048 x) 0, fl := fl }] := rfl
@[simp] theorem Core.endW_queueW (c : Core) (w : EndW) : (c.queueW w).endW = c.endW ++ [w] := rfl

end Sys2Proof.Machine
end

