-- ==== Sys2Proof/Laws/Moves.lean ====
section
/-! SUPPORT. Laws of moves: an instruction that is a move does what its move does, a well-formed one is a legal move, and the effect of a move
by its parts. -/
namespace Sys2Proof.Machine

/-- What a move instruction does is what its move does. -/
theorem exec_of_toMove {i : Instr} {mv : Move} (h : i.toMove = some mv) (s : State) : exec i s = .next (runMove mv s) := by
  cases i <;> cases h <;> rfl

@[simp] theorem modBits_toNat (a b c : Bool) : (modBits a b c).toNat = 4 * a.toNat + 2 * b.toNat + c.toNat := by
  cases a <;> cases b <;> cases c <;> rfl
@[simp] theorem modBits_bit0 (a b c : Bool) : (modBits a b c)[0] = c := by cases a <;> cases b <;> cases c <;> rfl
@[simp] theorem modBits_bit1 (a b c : Bool) : (modBits a b c)[1] = b := by cases a <;> cases b <;> cases c <;> rfl
@[simp] theorem modBits_bit2 (a b c : Bool) : (modBits a b c)[2] = a := by cases a <;> cases b <;> cases c <;> rfl
theorem modBits_lt (a b c : Bool) : (modBits a b c).toNat < 8 := (modBits a b c).isLt
theorem modBits_eq (m : BitVec 3) : modBits (m.getLsbD 2) (m.getLsbD 1) (m.getLsbD 0) = m := by
  revert m; decide

/-! The shapes that the check of R159 takes for the operations that admit a mask, some values of MOD, or a post-increment. -/

theorem legal_mask {a b x : Bool} (q : Bool) (w : (a && b) = true) : (a && ((!q || true) && b && (!false || x))) = true := by
  cases a <;> cases b <;> simp_all
theorem legal_mask_only {a x : Bool} (q : Bool) (w : a = true) : (a && ((!q || true) && true && (!false || x))) = true := by
  cases a <;> simp_all
theorem legal_mod {b x : Bool} (w : b = true) : (true && (true && b && (!false || x))) = true := by
  cases b <;> simp_all
theorem legal_vx (m : BitVec 2) {a x : Bool} (q : Bool) (w : (a && m != 3) = true) :
    (a && ((!q || true) && decide ((m.setWidth 3).toNat < 3) && (!false || x))) = true := by
  have h : ∀ m : BitVec 2, (m != 3) = true → decide ((m.setWidth 3).toNat < 3) = true := by decide
  simp only [Bool.and_eq_true] at w
  rw [h m w.2, w.1]
  simp
theorem legal_red (m : BitVec 3) {a x : Bool} (q : Bool) (w : (a && m != 7) = true) :
    (a && ((!q || true) && m.toNat != 7 && (!false || x))) = true := by
  have h : ∀ m : BitVec 3, (m != 7) = true → (m.toNat != 7) = true := by decide
  simp only [Bool.and_eq_true] at w
  rw [h m w.2, w.1]
  simp
theorem legal_inc (n : Nat) (b1 b0 : Bool) {x : Bool} (hn : 2 * b1.toNat + b0.toNat < n) (w : (!b0 || x) = true) :
    (true && (true && decide ((modBits false b1 b0).toNat < n) && (!(modBits false b1 b0).getLsbD 0 || x))) = true := by
  have h : (modBits false b1 b0).toNat < n := by simpa using hn
  cases b0 <;> simp_all
theorem legal_mask_inc (b0 : Bool) {a x : Bool} (q : Bool) (w : ((!b0 || x) && a) = true) :
    (a && ((!q || true) && decide ((modBits false false b0).toNat < 2) && (!(modBits false false b0).getLsbD 0 || x))) = true := by
  cases b0 <;> cases a <;> simp_all

/-- A well-formed move instruction passes the checks of R159. -/
theorem legal_of_wf {i : Instr} {mv : Move} (h : i.toMove = some mv) (w : i.wf = true) : mv.legal = true := by
  cases i <;> cases h <;> try first
    | rfl
    | exact legal_mask _ w
    | exact legal_mask_only _ w
    | exact legal_mod w
    | exact legal_vx _ _ w
    | exact legal_red _ _ w
    | exact legal_inc 2 false _ (Nat.lt_of_le_of_lt (Nat.add_le_add_left (Bool.toNat_le _) _) (Nat.lt_succ_self _)) w
    | exact legal_inc 4 _ _ (Nat.lt_of_le_of_lt (Nat.add_le_add (Nat.mul_le_mul_left 2 (Bool.toNat_le _)) (Bool.toNat_le _)) (Nat.lt_succ_self _)) w
    | exact legal_mask_inc _ _ w
  case vpCvt.refl b2 b1 z k q src e => cases b2 <;> cases b1 <;> exact legal_mask_only _ w
  case vpCvtEf.refl b1 z k q src e => cases b1 <;> exact legal_mask_only _ w
  case xfGetn.refl b src e => cases b <;> rfl
  case xfPutn.refl b src e => cases b <;> rfl
  case xfGetf.refl b src e => cases b <;> rfl
  case xfPutf.refl b src e => cases b <;> rfl
  case xfGathf.refl b src e => cases b <;> rfl
  case xfScatf.refl b src e => cases b <;> rfl
  case xfAmon.refl b1 b0 src e => cases b1 <;> cases b0 <;> rfl
  case syChk.refl b src e => cases b <;> rfl

/-! ## Triggers -/

/-- A trigger of an occupied unit. -/
theorem runTrigger_busy {o : Op} {b : Nat} {m : BitVec 3} {gm : BitVec 64} {z : Bool} {p : Option (Fin 8)} {enc : Nat} {s : State}
    (h : s.fc.opBusy o s.sc = true) : runTrigger o b m gm z p enc s = s.raiseHere (busyFault s.fc o s.sc) := by
  simp only [runTrigger, h, if_true]

/-- A trigger with an operand value that makes it illegal. -/
theorem runTrigger_bad {o : Op} {b : Nat} {m : BitVec 3} {gm : BitVec 64} {z : Bool} {p : Option (Fin 8)} {enc rule v : Nat} {s : State}
    (h : s.fc.opBusy o s.sc = false) (r : operandBad o s.fr s.focus.core s.fc b (s.fc.unit o.unit).o0.toNat = some (rule, v)) :
    runTrigger o b m gm z p enc s = s.raiseHere (illegalFault s.fc o.dst rule (moveIndex s.fc o) enc v) := by
  simp only [runTrigger, h, Bool.false_eq_true, if_false, r]

/-- A trigger that its unit takes: port o1 is written, and the operation starts. -/
theorem runTrigger_ok {o : Op} {b : Nat} {m : BitVec 3} {gm : BitVec 64} {z : Bool} {p : Option (Fin 8)} {enc : Nat} {s : State}
    (h : s.fc.opBusy o s.sc = false) (r : operandBad o s.fr s.focus.core s.fc b (s.fc.unit o.unit).o0.toNat = none) :
    runTrigger o b m gm z p enc s =
      startOp o { o := o, b := b, m := m, gm := gm, z := z, ptr := p } (s.modFc (fun c => c.writePort o.unit 1 b)) := by
  simp only [runTrigger, h, Bool.false_eq_true, if_false, r]

/-- A move that fires an operation runs it as a trigger with what the move carries. -/
theorem exec_fires {i : Instr} {o : Op} {x : Trig} {s : State} (h : Fires i o x s) :
    ∃ enc, exec i s = .next (runTrigger o x.b x.m x.gm x.z x.ptr enc s) ∧ x.o = o := by
  obtain ⟨hw, mv, hm, hf, rfl⟩ := h
  rw [exec_of_toMove hm]
  have hl := legal_of_wf hm hw
  unfold runMove
  simp only [hl, Bool.not_true, Bool.false_eq_true, if_false]
  refine ⟨encodeMove mv, ?_⟩
  cases mv with
  | short x d e =>
    cases d with
    | plain d => cases hf
    | trig q => cases hf; exact ⟨rfl, rfl⟩
  | compact _ _ _ _ => cases hf
  | transport x d q k z m e =>
    cases d with
    | plain d => cases hf
    | trig q => cases hf; exact ⟨rfl, rfl⟩
  | imm d x e =>
    cases d with
    | plain d => cases hf
    | trig q => cases hf; exact ⟨rfl, rfl⟩
  | long d p x e =>
    cases d with
    | plain d => cases hf
    | trig q => cases hf; exact ⟨rfl, rfl⟩
  | idle _ _ => cases hf
  | nop _ => cases hf

/-- What a move does whose operation its unit takes. -/
theorem exec_ready {i : Instr} {o : Op} {x : Trig} {s : State} (h : Fires i o x s) (r : Ready o x s) :
    exec i s = .next (startOp o x (s.modFc (fun c => c.writePort o.unit 1 x.b))) := by
  obtain ⟨enc, he, hx⟩ := exec_fires h
  rw [he, runTrigger_ok r.1 r.2]
  cases x
  cases hx
  rfl

/-- What a plain move does. -/
theorem exec_plain {i : Instr} {mv : Move} {d : PlainDst} (h : i.toMove = some mv) (w : i.wf = true) (hd : movePlainDst mv = some d) (s : State) :
    exec i s = .next (movePlain d (moveValue s.fc mv) s) := by
  rw [exec_of_toMove h]
  have hl := legal_of_wf h w
  unfold runMove
  simp only [hl, Bool.not_true, Bool.false_eq_true, if_false]
  cases mv with
  | short x d e =>
    cases d with
    | plain d => cases hd; rfl
    | trig q => cases hd
  | compact _ _ _ _ => cases hd
  | transport x d q k z m e =>
    cases d with
    | plain d => cases hd; rfl
    | trig q => cases hd
  | imm d x e =>
    cases d with
    | plain d => cases hd; rfl
    | trig q => cases hd
  | long d p x e =>
    cases d with
    | plain d => cases hd; rfl
    | trig q => cases hd
  | idle _ _ => cases hd
  | nop _ => cases hd

/-! ## Ports -/

@[simp] theorem Core.writePort_o1 (c : Core) (u : UnitId) (b : Nat) :
    ((c.writePort u 1 b).unit u).o1 = BitVec.ofNat 2048 (b % 2 ^ portWidth u 1) := by simp [Core.writePort]
@[simp] theorem Core.writePort_o0 (c : Core) (u : UnitId) (b : Nat) : ((c.writePort u 1 b).unit u).o0 = (c.unit u).o0 := by simp [Core.writePort]
@[simp] theorem Core.writePort_o2 (c : Core) (u : UnitId) (b : Nat) : ((c.writePort u 1 b).unit u).o2 = (c.unit u).o2 := by simp [Core.writePort]
@[simp] theorem Core.writePort_r (c : Core) (u : UnitId) (b : Nat) : ((c.writePort u 1 b).unit u).r = (c.unit u).r := by simp [Core.writePort]
@[simp] theorem Core.writePort_h (c : Core) (u : UnitId) (b : Nat) : ((c.writePort u 1 b).unit u).h = (c.unit u).h := by simp [Core.writePort]
@[simp] theorem Core.writePort_o0' (c : Core) (u : UnitId) (b : Nat) : (c.writePort u 1 b).o0 u = c.o0 u := by simp [Core.o0]
@[simp] theorem Core.writePort_o2' (c : Core) (u : UnitId) (b : Nat) : (c.writePort u 1 b).o2 u = c.o2 u := by simp [Core.o2]
/-- The 64-bit value of a trigger, as its operation reads it from o1. -/
theorem Core.writePort_o1' (c : Core) (u : UnitId) (b : Nat) (h : portWidth u 1 = 64) : (c.writePort u 1 b).o1 u = b % 2 ^ 64 := by
  simp only [Core.o1, Core.writePort_o1, h, BitVec.toNat_ofNat]
  omega
/-- An operation reads a wide trigger value whole. -/
theorem Core.writePort_wide (c : Core) (u : UnitId) (b : Nat) (h : portWidth u 1 = 2048) :
    ((c.writePort u 1 b).unit u).o1.toNat = b % 2 ^ 2048 := by
  simp only [Core.writePort_o1, h, BitVec.toNat_ofNat, Nat.mod_mod]

end Sys2Proof.Machine
end

