-- ==== Sys2Proof/Tests/Slice0.lean ====
section
/-! SUPPORT. The model's own tests: ill-formed terms, words written out from the encoding tables, and for every statement of the obligations states and
operands that meet its hypotheses, with what one step on them gives where the spec states it. -/
namespace Sys2Proof.Tests
open Sys2Proof.Machine

set_option maxRecDepth 20000
set_option exponentiation.threshold 4096
set_option Elab.async false

/-! ## Well-formed instructions (spec/06_encoding.md R152 to R159; spec/11_puzil.md R278 to R286) -/

theorem test_wf_increment_needs_pointer : (Instr.lsLd8 true (.g 1) false).wf = false ∧ (Instr.lsLd8 true (.p 1) false).wf = true := by decide
theorem test_wf_mask_fields_zero_without_mask : (Instr.vxAnd false 1 false (.v 1) false).wf = false ∧ (Instr.vxAnd true 0 false (.v 1) false).wf = false := by decide
theorem test_wf_fp_mod : (Instr.vxFadd 3 false 0 false (.v 1) false).wf = false ∧ (Instr.vxFadd 2 false 0 false (.v 1) false).wf = true := by decide
theorem test_wf_int_mod : (Instr.vxAdd 3 false 0 false (.v 1) false).wf = false := by decide
theorem test_wf_shape_mod : (Instr.vpPerm 5 false 0 false (.v 1) false).wf = false := by decide
theorem test_wf_reduction_mod : (Instr.vpRsum 7 false 0 false (.v 1) false).wf = false := by decide
theorem test_wf_qblk_mod : (Instr.vpQblk 5 (.v 1) false).wf = false := by decide
theorem test_wf_window_unit : (Instr.puzilCopy 0 0 0x30c000 0 7 0 0 0 false).wf = false ∧ (Instr.puzilCopy 0 0 0x200000 0 7 0 0 0 false).wf = true := by decide
theorem test_wf_copy_two_windows : (Instr.puzilCopy 0 0 0x200000 0x200000 7 0 0 0 false).wf = false := by decide
theorem test_wf_copy_formats : (Instr.puzilCopy 0 0 0 0 7 0 9 0 false).wf = false ∧ (Instr.puzilCopy 0 0 0 0 191 0 6 0 false).wf = false := by decide
theorem test_wf_local_address : (Instr.puzilSend 0 0 0x200000 0 0 0).wf = false := by decide
theorem test_wf_len : (Instr.puzilSend 0 0 0 192 0 0).wf = false ∧ (Instr.puzilSend 0 0 0 191 0 0).wf = true := by decide
theorem test_wf_advance_bits : (Instr.puzilSend 0 0 0 0 2 0).wf = false := by decide
theorem test_wf_reduce : (Instr.puzilReduce 0 0 0 0 0 0 0 3 0).wf = false ∧ (Instr.puzilReduce 0 0 0 0 0 0 0 0 3).wf = false := by decide
theorem test_wf_rqadd : (Instr.puzilRqadd 0 0 0 0 0 0 0 3 0 false 0).wf = false ∧ (Instr.puzilRqadd 0 0 0 0 0 0 0 2 0 false 2).wf = false := by decide
theorem test_wf_loop : (Instr.puzilLoop 0 0 0 1 0 0 0).wf = false ∧ (Instr.puzilLoop 0 1 1 1 0 0 0).wf = false ∧ (Instr.puzilLoop 0 0 1 0 0 0 0).wf = false := by decide

/-! ## Words written out from R146 to R157 -/

-- MOD, Z, MSEL, M, DST = 128 * unit + code, SRC, format, E, 1
theorem test_word_ia : decodeTableWord 32 0x00097071 = some (.iaRotl .ia1 (.g 7) false) := by decide
theorem test_word_im : decodeTableWord 32 0x0010c561 = some (.imDivu (.h .im) false) := by decide
theorem test_word_ls : decodeTableWord 32 0x3b194433 = some (.lsSt256 true true 5 true (.p 3) true) := by decide
theorem test_word_vx : decodeTableWord 32 0x2722c291 = some (.vxCltu 1 false 3 true (.v 9) false) := by decide
theorem test_word_vp : decodeTableWord 32 0x5f2993f1 = some (.vpCompress 2 true 7 true (.v 31) false) := by decide
theorem test_word_mx : decodeTableWord 32 0x00313c01 = some (.mxStatus (.imm 0) false) := by decide
theorem test_word_xf : decodeTableWord 32 0x00393c31 = some (.xfWait (.imm 3) false) := by decide
theorem test_word_br : decodeTableWord 32 0x00412481 = some (.brLoop (.r .ia0) false) := by decide
theorem test_word_sy : decodeTableWord 32 0x00491481 = some (.syChk false (.r .ia0) false) := by decide
theorem test_word_tg : decodeTableWord 32 0x0050b511 = some (.tgRead (.r .sy) false) := by decide
theorem test_word_cr : decodeTableWord 32 0x00589bf1 = some (.crWr (.imm 0x7f) false) := by decide
theorem test_word_cr_short : decodeTableWord 16 0xef1a = some (.crWrShort (.g 3) true) := by decide
theorem test_word_mx_short : decodeTableWord 16 0xa8b8 = some (.mxMmaShort (.r .xf) false) := by decide
theorem test_word_short_port : decodeTableWord 16 0x4778 = some (.shortTransportMove (.port .xf 2) (.g 15) false) := by decide
theorem test_word_short_v : decodeTableWord 16 0x2f98 = some (.shortTransportMove (.v 15) (.r .ls) false) := by decide
theorem test_word_compact : decodeTableWord 16 0x58fc = some (.permCompact 17 5 false) := by decide
theorem test_word_immediate : decodeTableWord 32 0xfe190dc5 = some (.immediateMove (.trig (.ls .st8)) 0xfedc false) := by decide
theorem test_word_reserved_code : decodeTableWord 32 0x0010f001 = none ∧ decodeTableWord 32 0x00f83601 = none ∧ decodeTableWord 32 0x0000002d = none := by decide
theorem test_roundtrip_witness : (Instr.puzilSignal 7 0x10 2 5).wf = true ∧ encode (.puzilSignal 7 0x10 2 5) = some (128, 0xb07000010000000000000000000010a0) ∧
    encode (.iaRotl .ia1 (.g 7) false) = some (32, 0x00097071) := by decide
theorem test_decode_witness : decode [0x71, 0x70, 0x09, 0x00, 0xff] = some (.iaRotl .ia1 (.g 7) false, [0xff]) := by decide


/-! ## Small states -/

/-- A region of one core, running, at stitch 100. -/
def tReg : Region := { d := { state := 2, wid := 1, hgt := 1, npkg := 1 }, clk := { sc := 100, ssc := 100 }, work := { next := 100 } }
/-- A core that issues. -/
def tCore : Core := { issue := .issuing, cur := 0x40 }
def tOf (c : Core) (r : Region) : State := { State.reset with cores := [(0, c)], regions := [(0, r)], pcyc := 100 }
def tS : State := tOf tCore tReg
/-- What a move triggers, and what it carries. -/
def trigOf (i : Instr) (s : State) : Option (Op × Trig) := i.toMove.bind (fun mv => (moveFires mv).map (fun o => (o, moveTrig s.fc o mv)))
/-- A well-formed move fires what `trigOf` says. -/
theorem fires_of_trigOf {i : Instr} {s : State} {o : Op} {x : Trig} (w : i.wf = true) (h : trigOf i s = some (o, x)) : Fires i o x s := by
  obtain ⟨mv, h1, h2⟩ := Option.bind_eq_some_iff.mp h
  obtain ⟨p, h3, h4⟩ := Option.map_eq_some_iff.mp h2
  cases h4
  exact ⟨w, mv, h1, h3, rfl⟩
/-- The instruction is well-formed, triggers the operation, and what it carries satisfies a test. -/
def firesB (i : Instr) (s : State) (o : Op) (f : Trig → Bool) : Bool := i.wf && (match trigOf i s with | some (p, x) => p == o && f x | none => false)
/-- The next state of an instruction satisfies a test. -/
def after (i : Instr) (s : State) (f : State → Bool) : Bool := match exec i s with | .next t => f t | _ => false
/-- The value due at a latch by the first landing record, with its stitch. -/
def landed (t : State) : Option (Nat × UnitId × Bool × Nat) :=
  match t.fc.lands with | x :: _ => (match x.tgt with | .latch u hi v _ => some (x.due, u, hi, v.toNat) | _ => none) | [] => none
/-- The first fault record of core 0: code, class, words 5 to 7. -/
def fault (t : State) : Option (Nat × Nat × Nat × Nat × Nat) :=
  match (t.core 0).frec with
  | f :: _ => some (bitsOf (f.get 0).toNat 7 0, bitsOf (f.get 0).toNat 15 8, (f.get 5).toNat, (f.get 6).toNat, (f.get 7).toNat)
  | [] => none
def withPorts (u : UnitId) (a b : Nat) : Core := tCore.setUnit u { o0 := BitVec.ofNat 2048 a, o2 := BitVec.ofNat 2048 b }

/-! ## The step -/

theorem test_step_runs_move :
    let s := tS.withFetchWord 32 0x1d
    s.focus.moves = [0] ∧ decode (Memory.readN s.fc.imem 0 8) = some (.nop false, [0, 0, 0, 0]) := by decide
theorem test_step_runs_input :
    let s := { tS with inputs := [(100, .syncPulse true)] }
    s.focus.moves = [] ∧ 100 ≤ s.pcyc ∧ (match step s with | .next t => t.inputs == [] && t.pcyc == 100 | _ => false) = true := by decide
theorem test_step_runs_task :
    let s := tOf tCore { tReg with work := { next := 100, stage := 2, agenda := [.ev (.idleEnd 0 0)] } }
    s.focus.moves = [] ∧ s.inputs = [] ∧ s.dueRegion = some 0 ∧ (s.rgn 0).work.agenda = [.ev (.idleEnd 0 0)] := by decide
theorem test_step_runs_op :
    let s := State.reset.withFetchWord 128 0xe0000000000000000000000000000000
    let t := s.modRgn 0 (fun r => { r with work := { r.work with agenda := [] } })
    s.focus.moves = [] ∧ s.inputs = [] ∧ s.dueRegion = some 0 ∧ (s.rgn 0).work.agenda = [.op 1 0 0 0] ∧
      ((t.rgn 0).plan 1).any (fun p => decodePuzil (opWordAt (t.prog (p.rank 0)) 0 0) == some (.puzilEnd 0 0)) = true := by decide
theorem test_cycle : (match step State.reset with | .next t => t.pcyc == 1 | _ => false) = true := by decide

/-! ## Moves -/

theorem test_immediates : immValue 0xffff = 2 ^ 64 - 1 ∧ longValue .high 0x80000001 = 0x8000000100000000 ∧ longValue .signExt 0x80000000 = 0xffffffff80000000 := by decide
theorem test_move_to_port : let i : Instr := .immediateMove (.plain (.port .vx 1)) 5 false
    i.wf = true ∧ i.toMove.bind movePlainDst = some (.port .vx 1) ∧ after i tS (fun t => portVal t.fc .vx 1 == 5) = true := by decide
theorem test_move_to_g0 : let i : Instr := .shortTransportMove (.g 0) (.r .ls) false
    i.wf = true ∧ i.toMove.bind movePlainDst = some (.g 0) ∧ after i (tOf (tCore.setUnit .ls { r := 7 }) tReg) (fun t => t.fc.endStitch.readG 0 == 0) = true := by decide
theorem test_move_to_g31 : after (.immediateMove (.plain (.g 31)) 0xfffe false) tS (fun t => t.fc.endStitch.readG 31 == 0xfffffffffffffffe) = true := by decide
theorem test_move_to_p7 : let i : Instr := .longImmediateMove (.plain (.p 7)) .high 0xffffffff false
    i.wf = true ∧ after i tS (fun t => t.fc.endStitch.readP 7 == 0x03ffffff00000000) = true := by decide
theorem test_move_to_v31 : let i : Instr := .transportMove (.v 31) (.imm 0x7f) false
    i.wf = true ∧ i.toMove.bind movePlainDst = some (.v 31) ∧ tS.fc.writtenBack 31 = none ∧ after i tS (fun t => t.fc.endStitch.readV 31 == 2 ^ 64 - 1) = true := by decide
theorem test_writeback_collision : let s := tOf { tCore with endW := [.vback 3 9 0x210 0x40] } tReg
    (Instr.transportMove (.v 3) (.g 1) false).wf = true ∧ s.fc.writtenBack 3 = some (0x210, 0x40) ∧
      after (.transportMove (.v 3) (.g 1) false) s (fun t => (fault t).map Prod.fst == some 4) = true := by decide
theorem test_idle : after (.idle 5 false) tS (fun t => t.fc.issue == .idle 106) = true ∧ after (.idle 0 false) tS (fun t => t.fc.issue == .issuing) = true := by decide
theorem test_nop : after (.nop true) tS (fun t => t == tS) = true := by decide
theorem test_move_frame_witness : (Instr.nop false).toMove.isSome = true := by decide
theorem test_busy_unit : let s := tOf (tCore.setUnit .im { trig := 81, occ := 20 }) tReg
    firesB (.imMul (.g 1) false) s (.im .mul) (fun _ => s.fc.opBusy (.im .mul) s.sc) = true ∧
      after (.imMul (.g 1) false) s (fun t => fault t == some (3, 0, 2, 0, 0) || (fault t).map Prod.fst == some 3) = true := by decide
theorem test_unit_free_after_occupancy : (tOf (tCore.setUnit .im { trig := 80, occ := 20 }) tReg).fc.opBusy (.im .mul) 100 = false := by decide
theorem test_illegal_operand : firesB (.crRd (.imm 5) false) tS (.cr .rd) (fun x => !tS.fc.opBusy (.cr .rd) tS.sc &&
      (operandBad (.cr .rd) tS.fr 0 tS.fc x.b 0).isSome) = true ∧ after (.crRd (.imm 5) false) tS (fun t => (fault t).map Prod.fst == some 1) = true := by decide
theorem test_fifth_record_is_lost : let c := { tCore with frec := List.replicate 4 (Vector.replicate 8 0) }
    (c.frec.length = 4) ∧ ((tOf c tReg).raise 0 0 100 { code := 1 }).fc.ovf = true ∧ (tS.core 0).frec.length < 4 := by decide

/-! ## Scalar units -/

theorem test_ia_sub_wraps : firesB (.iaSub .ia1 (.imm 1) false) tS (.ia .ia1 .sub) (fun x => x.b == 1 && !(tS.fc.unit .ia1).busy tS.sc) = true ∧
    after (.iaSub .ia1 (.imm 1) false) tS (fun t => landed t == some (101, .ia1, false, 2 ^ 64 - 1)) = true := by decide
theorem test_ia_bfx_at_top : after (.longImmediateMove (.trig (.ia .ia0 .bfx)) .zeroExt (63 + 64 * 64) false) (tOf (withPorts .ia0 (2 ^ 63) 0) tReg)
    (fun t => landed t == some (101, .ia0, false, 1)) = true := by decide
theorem test_im_mulh_signed : firesB (.imMulh (.imm 0x7f) false) tS (.im .mulh) (fun _ => !(tS.fc.unit .im).busy tS.sc) = true ∧
    after (.imMulh (.imm 0x7f) false) (tOf (withPorts .im 1 0) tReg) (fun t => landed t == some (103, .im, false, 2 ^ 64 - 1)) = true := by decide
theorem test_im_div_by_zero : after (.imDivuShort (.g 0) false) (tOf (withPorts .im 9 0) tReg)
    (fun t => landed t == some (120, .im, false, 2 ^ 64 - 1) && t.fc.lands.any (fun x => x.fl == fDZI && x.due == 120)) = true := by decide
theorem test_br_taken : firesB (.brBz (.g 0) false) tS (.br .bz) (fun _ => !(tS.fc.unit .br).busy tS.sc) = true ∧
    after (.brBz (.g 0) false) (tOf (withPorts .br 0x12345 0) tReg) (fun t => t.fc.redir == [⟨103, 0x12344⟩]) = true := by decide
theorem test_br_not_taken : after (.brBz (.imm 1) false) tS (fun t => t.fc.redir == []) = true := by decide
theorem test_cr_reads_sc : firesB (.crRd (.imm 0) false) tS (.cr .rd) (fun x => crRead tS.fr 0 tS.fc (x.b % 4096) == some 100) = true ∧
    after (.crRd (.imm 0) false) tS (fun t => landed t == some (101, .cr, false, 100)) = true := by decide
theorem test_cr_write_witness : let s := tOf (withPorts .cr 3 0) tReg
    firesB (.crWr (.imm 0x12) false) s (.cr .wr) (fun x => (operandBad (.cr .wr) s.fr 0 s.fc x.b 3) == none && x.b % 4096 == 0x12) = true ∧
      after (.crWr (.imm 0x12) false) s (fun t => t.fc.lands == [{ due := 101, trig := 100, tgt := .special 0x12 3 false }]) = true := by decide
theorem test_tg_look_misses : firesB (.tgLook (.g 1) false) tS (.tg .look) (fun _ => !(tS.fc.unit .tg).busy tS.sc) = true ∧
    after (.tgLook (.g 1) false) tS (fun t => landed t == some (103, .tg, false, 2 ^ 64 - 1)) = true := by decide
theorem test_ls_last_bytes : firesB (.immediateMove (.trig (.ls .ld64)) 0x7ff8 false) tS (.ls .ld64) (fun x => x.b == 0x7ff8) = true ∧
    after (.longImmediateMove (.trig (.ls .ld64)) .zeroExt 0x17fff8 false) tS (fun t => t.fc.banks.length == 1 && (fault t).isNone) = true := by decide
theorem test_ls_bounds : after (.longImmediateMove (.trig (.ls .ld8)) .zeroExt 0x180000 false) tS (fun t => fault t == some (0x21, 0, 0x180000, 1, 0)) = true := by decide
theorem test_ls_align : after (.immediateMove (.trig (.ls .st32)) 2 false) tS (fun t => fault t == some (0x20, 0, 2, 4, 0)) = true := by decide
theorem test_pointer_wraps : ptrNext (0x100 * 2 ^ 37 + 0xfff0 * 2 ^ 21 + 0x200) = 0x100 * 2 ^ 37 + 0xfff0 * 2 ^ 21 + 0x2f0 := by decide

/-! ## Vector units -/

def vecPorts (a c : Nat) (v : Nat) : Core :=
  { (withPorts .vx a c) with regs := { v := (Vector.replicate 32 0).set 1 (BitVec.ofNat 2048 v) } }
theorem test_vx_fadd : let s := tOf (vecPorts 0x3f800000 0 0x3f800000) tReg
    firesB (.vxFaddShort (.g 1) false) s (.vx .fadd) (fun _ => !(s.fc.unit .vx).busy s.sc) = true ∧
      after (.vxFadd 0 false 0 false (.v 1) false) s (fun t => landed t == some (104, .vx, false, 0x40000000)) = true := by decide
theorem test_vx_masked_group_kept : let s := tOf (vecPorts 7 0 (2 ^ 32 + 1)) tReg
    after (.vxAdd 0 false 0 true (.v 1) false) s (fun t => t.fc.lands.any (fun x => x.tgt == .latch .vx false 0 (2 ^ 2048 - 1))) = true := by decide
theorem test_vp_witness : firesB (.vpCvt false false false 0 false (.v 1) false) tS (.vp .cvt) (fun x => operandBad (.vp .cvt) tS.fr 0 tS.fc x.b 0 == none) = true := by decide
theorem test_compact_witness : (Instr.permCompact 17 5 false).toMove = some (.compact 15 17 5 false) ∧ (tS.fc.unit .vp).busy tS.sc = false ∧
    after (.addCompact 1 1 false) (tOf (vecPorts 0 0 5) tReg) (fun t => landed t == some (102, .vx, false, 10)) = true := by decide
theorem test_int_lane_63 : let x : VIn := { a := 2 ^ 2047, b := 2 ^ 2047, c := 0, m := 0, gm := BitVec.allOnes 64, z := false, rm := .rne }
    intLane .add (laneBits (BitVec.ofNat 2048 x.a) (vxWidth x.m) 63) (laneBits (BitVec.ofNat 2048 x.b) (vxWidth x.m) 63) = some 0 ∧
      laneBits (BitVec.ofNat 2048 (vxRun .add x).r) 32 63 = 0 := by decide
theorem test_saturating_lane : let x : VIn := { a := 2 ^ 2047, b := 2 ^ 2047, c := 0, m := 0, gm := BitVec.allOnes 64, z := false, rm := .rne }
    (laneBits (BitVec.ofNat 2048 (vxRun .adds x).r) 32 63).toInt = -2147483648 := by decide
theorem test_vp_rot_by_64_bit_amount : let x : VIn := { a := 1, b := 2 ^ 63 + 1, c := 0, m := 0, gm := BitVec.allOnes 64, z := false, rm := .rne }
    laneBits (BitVec.ofNat 2048 (vpRun .rot x).r) 32 1 = 1 := by decide
theorem test_fdiv_by_zero : (fDiv .fp32 .rne (.fin true 3 0) (.fin false 0 0)) = ⟨0xff800000, fDZ⟩ := by decide

/-! ## Values of vector operations, calculated by hand from spec/04_numbers.md and spec/08_vector_ops.md -/

/-- Operands of a vector operation without a mask: a, b, c and MOD. -/
def vin (a b c m : Nat) : VIn := { a := a, b := b, c := c, m := BitVec.ofNat 3 m, gm := BitVec.allOnes 64, z := false, rm := .rne }
theorem test_vx_andn : (vin 12 10 0 0).gm = BitVec.allOnes 64 ∧ (vxRun .andn (vin 12 10 0 0)).r = 4 := by decide
theorem test_unsigned_clamp : (vxRun .addsu (vin (2 ^ 32 - 1) 1 0 0)).r = 2 ^ 32 - 1 ∧ (vxRun .addsu (vin (2 ^ 32 - 1) 1 0 0)).fl = fIOV ∧ (vxRun .subsu (vin 7 7 0 0)).fl = 0 := by decide
theorem test_slideup_fill : laneBits (BitVec.ofNat 2048 (vpRun .slideup (vin 9 2 (5 * 2 ^ 2016) 0)).r) 32 1 = 5 ∧
    laneBits (BitVec.ofNat 2048 (vpRun .slideup (vin 9 2 (5 * 2 ^ 2016) 0)).r) 32 2 = 9 := by decide
theorem test_compress : (vpRun .compress (vin (3 + 7 * 2 ^ 32) 2 0 0)).r = 7 ∧ (vpRun .expand (vin 7 2 0 0)).r = 7 * 2 ^ 32 := by decide
theorem test_ilv : (vpRun .ilv (vin 3 7 0 0)).r = 3 + 7 * 2 ^ 32 ∧ (vpRun .dilv (vin (3 + 7 * 2 ^ 32) 0 1 0)).r = 7 := by decide
theorem test_compare_masked : (vxRun .ceq { vin 5 5 0 0 with gm := 3 }).r = 3 ∧ (vxRun .ceq { vin 5 5 0 0 with gm := 3 }).keep = 2 ^ 64 - 4 := by decide
theorem test_compare_nan : (vxRun .fclt (vin 0 0x7fc00000 0 0)).fl = fNV ∧ (vxRun .fceq (vin 0 0x7fc00000 0 0)).fl = 0 ∧ (vxRun .fclt (vin 0 0x3f800000 0 0)).r = 1 := by decide
theorem test_exact_quotient : FFmt.fp32.number 0x40c00000 = some 6 ∧ FFmt.fp32.number 0x40400000 = some 3 ∧ FFmt.fp32.number 0x40000000 = some 2 ∧
    fDiv .fp32 .rdn (FFmt.fp32.unpack 0x40c00000) (FFmt.fp32.unpack 0x40400000) = ⟨0x40000000, 0⟩ := by decide +kernel
theorem test_exact_root : FFmt.fp32.number 0x40800000 = some 4 ∧ fSqrt .fp32 .rup (FFmt.fp32.unpack 0x40800000) = ⟨0x40000000, 0⟩ := by decide +kernel
theorem test_min_of_zeros : FFmt.fp32.number 0x80000000 = some 0 ∧ FFmt.fp32.number 0 = some 0 ∧ (fMinMax .fp32 false 0 0x80000000).val = 0x80000000 ∧
    fMinMax .fp32 true 0x7f800001 0x40000000 = ⟨0x40000000, fNV⟩ := by decide +kernel
theorem test_sum_rounds : fAdd .fp32 .rne (FFmt.fp32.unpack 0x3f800000) (FFmt.fp32.unpack 0x33800000) = ⟨0x3f800000, fNX⟩ ∧ fNX.getLsbD 2 = false ∧ fOF.getLsbD 2 = true := by decide +kernel
theorem test_fneg_nan : fSignOp .fp32 (fun s => !s) 0x7f800001 = ⟨0x7fc00000, fNV⟩ ∧ fSignOp .fp32 (fun s => !s) 0x3f800000 = ⟨0xbf800000, 0⟩ := by decide +kernel
theorem test_cvt : Fmt.ofCode 0 = some (.f .fp32) ∧ Fmt.ofCode 1 = some (.f .fp16) ∧ (vpRun .cvt (vin 16 0x3f800000 0 0)).r = 0x3c00 := by decide +kernel
theorem test_cvt_ef : (vpRun .cvtEf (vin 16 0x3f801000 0 0)).r % 2 ^ 16 = 0x3c00 ∧ (vpRun .cvtEf (vin 16 0x3f801000 0 0)).h.map (· % 2 ^ 32) = some 0x3a000000 := by decide +kernel
theorem test_qblk : (qblk 0 (List.replicate 32 0x3f800000)).scale % 64 < 63 ∧ FFmt.fp32.number 0x3f800000 = some 1 ∧ (qblk 0 (List.replicate 32 0x3f800000)).codes.length = 32 := by decide +kernel
theorem test_rbsum : (∀ j, j < 64 → FFmt.fp32.unpack (laneBits (BitVec.ofNat 2048 0x3f800000) 32 j).toNat = .fin false (if j = 0 then 2 ^ 23 else 0) (if j = 0 then -23 else -149)) ∧
    (vpRun .rbsum (vin 0 0x3f800000 0 0)).r = 0x3f800000 := by decide +kernel
theorem test_rsum_int : (vpRun .rsum (vin 0 (3 + 5 * 2 ^ 32) 0 3)).r = 8 := by decide +kernel
theorem test_mpop : (vpRun .mpop (vin 0 0x8000000000000001 0 0)).r = 2 ∧ (vpRun .mfirst (vin 0 0 0 0)).r = 64 := by decide +kernel

/-! ## The matrix engine -/

/-- A descriptor: format, space, rows, columns, stride, base. -/
def tdOf (fmt space rows cols stride base : Nat) : BitVec 256 :=
  BitVec.ofNat 256 (base + fmt * 2 ^ 112 + space * 2 ^ 116 + rows * 2 ^ 121 + cols * 2 ^ 134 + stride * 2 ^ 160)
/-- A core whose descriptors 0 and 1 and whose tile 2 are set. -/
def mxCore (a b : BitVec 256) (cfg : W64) : Core :=
  { tCore with sp := { td := ((Vector.replicate 32 0).set 0 a).set 1 b, acfg := (Vector.replicate 16 0).set 2 cfg } }
def mmaS : State := tOf (mxCore (tdOf 2 0 8 2 4 0x220) (tdOf 2 0 8 2 4 0x80000) 0x8000000000000408) tReg
theorem test_mma_witness : firesB (.immediateMove (.trig (.mx .mma)) 2080 false) mmaS (.mx .mma) (fun x => !mmaS.fc.opBusy (.mx .mma) 100 && x.b % 32 == 0) = true ∧
    (let a := mmaS.fc.sp.td.get 0
     let b := mmaS.fc.sp.td.get 1
     match mxPair (tdFmt a) (tdFmt b) with
     | some p =>
       let m : MxMul := { trig := 100, baddr := 0x40, sparse := false, ctl := 2080, a := a, b := b, steps := tdCols a / p.r }
       mxDescCheck false a b 0 1 == none && !m.tileBad (mmaS.fc.acfg m.tile) && m.inBounds && !m.bankClash && mmaS.fc.mx.targeted m.tile 100 == none
     | none => false) = true := by decide
theorem test_mma_finish : after (.immediateMove (.trig (.mx .mma)) 2080 false) mmaS (fun t => t.fc.mx.opens == [109]) = true := by decide
def mxLoadS : State := tOf (mxCore (tdOf 0 0 1 8 32 0x220) 0 0x8000000000000401) tReg
theorem test_mx_load_witness : firesB (.immediateMove (.trig (.mx .load)) 2048 false) mxLoadS (.mx .load) (fun _ => !(mxLoadS.fc.unit .mx).busy 100) = true ∧
    (let td := mxLoadS.fc.sp.td.get 0
     tdCheck td false false 1 == none && tdSpace td == 0 && !mxMoveFmtBad true (tdFmt td) (acfgType (mxLoadS.fc.acfg 2)) && tdRows td == 1 && tdCols td == 8 &&
       acfgOn (mxLoadS.fc.acfg 2) && acfgRows (mxLoadS.fc.acfg 2) == 1 && acfgCols (mxLoadS.fc.acfg 2) == 8 && scrIn (tdBase td) 32 &&
       mxLoadS.fc.mx.targeted 2 100 == none) = true ∧ after (.immediateMove (.trig (.mx .load)) 2048 false) mxLoadS (fun t => t.fc.mx.opens == [104]) = true := by decide
theorem test_mx_rrow_last_row : firesB (.immediateMove (.trig (.mx .rrow)) (2 + 7 * 16) false) mmaS (.mx .rrow) (fun x => x.b / 16 % 64 == 7) = true ∧
    acfgOn (mmaS.fc.acfg 2) = true ∧ mmaS.fc.mx.targeted 2 100 = none ∧ 7 < acfgRows (mmaS.fc.acfg 2) ∧
      after (.immediateMove (.trig (.mx .rrow)) (2 + 7 * 16) false) mmaS (fun t => landed t == some (103, .mx, false, 0)) = true := by decide
theorem test_mx_wait_early : let s := tOf { tCore with mx := { grp := (Vector.replicate 8 0).set 7 101 } } tReg
    firesB (.mxWait (.imm 7) false) s (.mx .wait) (fun x => decide (s.sc < s.fc.mx.grp.get (Fin.ofNat 8 (x.b % 8)))) = true ∧
      after (.mxWait (.imm 7) false) s (fun t => fault t == some (0x10, 0, 0, 101, 100)) = true := by decide
theorem test_mx_commit : let s := tOf { tCore with mx := { opens := [150, 120] } } tReg
    after (.mxCommitShort (.g 0) false) s (fun t => t.fc.mx.opens == [] && t.fc.mx.grp.get 0 == 150) = true := by decide
theorem test_mx_status_witness : firesB (.mxStatus (.g 0) false) tS (.mx .status) (fun _ => !(tS.fc.unit .mx).busy 100) = true := by decide

/-! ## Transfers -/

def xfReg : Region := { tReg with d := { tReg.d with grant := [(0, 0xf)] } }
def xfCore (rem scr : Nat) : Core := withPorts .xf rem scr
theorem test_getn_witness : let s := tOf (xfCore 0x3ffff0 0x200) xfReg
    let s2 := tOf (xfCore 0x3fffe0 0x200) xfReg
    let y := mkXfer .getn 0 (s2.modFc (fun c => c.writePort .xf 1 32))
    firesB (.xfGetn false (.imm 0x20) false) s2 (.xf .getn) (fun x => x.b == 32) = true ∧ xferAddrCheck true false y = none ∧ xferNearProt s2.fr.d y = none ∧
      after (.xfGetn false (.imm 0x20) false) s2 (fun t => t.fc.xf.opens == [140]) = true ∧
      after (.xfGetn false (.imm 0x20) false) s (fun t => (fault t).map Prod.fst == some 0x21) = true := by decide
theorem test_putn_nothing : after (.xfPutnShort (.g 0) false) tS (fun t => t.fc.xf.opens == [] && (fault t).isNone) = true := by decide
def rtReg : Region := { tReg with d := { tReg.d with wid := 2 }, routes := [(1, { sx := 0, sy := 0, dx := 1, dy := 0, order := 0, ch := 0, width := 24, h := 1, d := 0, f := 0 })] }
theorem test_send_witness : let s := tOf (xfCore 0 0x200) rtReg
    let y := mkXfer .send 0 (s.modFc (fun c => c.writePort .xf 1 0x1000020))
    firesB (.longImmediateMove (.trig (.xf .send)) .zeroExt 0x1000020 false) s (.xf .send) (fun x => x.b % 2 ^ 24 == 32) = true ∧
      xferAddrCheck false false y = none ∧ sendCheck s y = none ∧
      after (.longImmediateMove (.trig (.xf .send)) .zeroExt 0x1000020 false) s (fun t => t.fc.xf.xfers.map Xfer.land0 == [106]) = true := by decide
theorem test_recv_witness :
    let send : Xfer := { kind := .send, trig := 96, baddr := 0, ctl := 0x1000020, scr := 0, rem := 0, len := 32, beat := 6144, read0 := 97, slot0 := 0, land0 := 102 }
    let s : State := { tOf (xfCore 0 0x200) rtReg with focus := { core := 1 }, cores := [(0, { tCore with xf := { xfers := [send] } }), (1, xfCore 0 0x200)] }
    let y := mkXfer .recv 0 (s.modFc (fun c => c.writePort .xf 1 0x1000020))
    firesB (.longImmediateMove (.trig (.xf .recv)) .zeroExt 0x1000020 false) s (.xf .recv) (fun x => x.b % 2 ^ 24 == 32) = true ∧ recvCheck s y = none := by decide
/-- A page of 64 KiB at the address 0x50000, writable, on logical H-die 3. -/
def tLeaf : BitVec 64 := BitVec.ofNat 64 (3 * 2 ^ 59 + 16 * 2 ^ 43 + 2 ^ 41 + 2)
def farCore : Core := { xfCore 0x50020 0x200 with tce := [(0, mkTce 0x50000 tLeaf)] }
theorem test_far_witness : let s := tOf farCore tReg
    let s1 := s.modFc (fun c => c.writePort .xf 1 32)
    let y := mkXfer .putf 0 s1
    firesB (.xfPutf false (.imm 0x20) false) s (.xf .putf) (fun x => x.b == 32) = true ∧ s.fr.clk.cdlev = 0 ∧ xferAddrCheck false true y = none ∧
      s1.fc.lookSpans [(y.rem, y.len)] = ([(5, tLeaf)], []) ∧ leafW tLeaf = true ∧
      after (.xfPutf false (.imm 0x20) false) s (fun t => t.fc.xf.opens == [700]) = true ∧ after (.xfGetfShort (.g 0) false) s (fun t => t.fc.xf.opens == []) = true := by decide
theorem test_far_journal_witness : let s := tOf farCore { tReg with clk := { tReg.clk with cdlev := 1 }, d := { tReg.d with jcap := 64 } }
    s.fr.jUsed + 32 + 32 ≤ s.fr.d.jcap ∧ after (.xfPutf false (.imm 0x20) false) s (fun t => t.fr.journal.map JEntry.len == [32]) = true := by decide
theorem test_far_miss_witness : let s := tOf (xfCore 0x50020 0x200) tReg
    (s.modFc (fun c => c.writePort .xf 1 32)).fc.lookSpans [(0x50020, 32)] = ([], [0x50020]) := by decide
def gathCore : Core :=
  { withPorts .xf 0x100 0x400 with sp := { td := (Vector.replicate 32 0).set 0 (tdOf 0 2 4 8 32 0x50000) } }
theorem test_gathf_witness : let s := tOf gathCore tReg
    let y := mkXfer .gathf 0 (s.modFc (fun c => c.writePort .xf 1 0x20))
    firesB (.xfGathf false (.imm 0x20) false) s (.xf .gathf) (fun x => x.b == 0x20) = true ∧ gathDesc y.td = none ∧ y.len = 32 ∧ gathAddr (s.fc.o0 .xf) y = none ∧
      after (.xfGathf false (.imm 0x20) false) s (fun t => t.fc.xf.xfers.map Xfer.len == [32]) = true := by decide
theorem test_amon_witness : let s := tOf (xfCore 0x3ffffc 7) xfReg
    firesB (.xfAmon false false (.imm 0) false) s (.xf .amon) (fun x => operandBad (.xf .amon) s.fr 0 s.fc x.b 0x3ffffc == none) = true ∧
      nearCheck 0x3ffffc 4 4 = none ∧ s.fr.d.nearProt 0x3ffffc = none ∧
      after (.xfAmon false false (.imm 0) false) s (fun t => t.fc.xf.opens == [144]) = true := by decide
theorem test_xf_flush : firesB (.xfFlush (.imm 3) false) tS (.xf .flush) (fun _ => !(tS.fc.unit .xf).busy 100) = true ∧
    after (.xfFlush (.imm 3) false) tS (fun t => landed t == some (740, .xf, false, 2 ^ 63 + 3)) = true := by decide
theorem test_xf_wait_at_completion : let s := tOf { tCore with xf := { grp := (Vector.replicate 8 0).set 0 100 } } tReg
    firesB (.xfWaitShort (.g 0) false) s (.xf .wait) (fun _ => true) = true ∧ after (.xfWaitShort (.g 0) false) s (fun t => (fault t).isNone) = true := by decide
theorem test_xf_commit : let s := tOf { tCore with xf := { opens := [150] } } tReg
    after (.xfCommit (.imm 2) false) s (fun t => t.fc.xf.opens == [] && t.fc.xf.grp.get 2 == 150) = true := by decide

/-! ## Synchronisation -/

theorem test_sync_of_no_member : firesB (.sySync (.g 0) false) tS (.sy .sync) (fun _ => !(tS.fc.unit .sy).busy 100) = true ∧ tS.fr.member 0 = false ∧
    after (.sySync (.g 0) false) tS (fun t => (fault t).map Prod.fst == some 0x15) = true := by decide
def memReg : Region := { tReg with seg := { mask := 1 } }
theorem test_sync : (tOf tCore memReg).fr.member 0 = true ∧ after (.sySyncShort (.g 0) false) (tOf tCore memReg) (fun t => t.fc.issue == .waiting 101 && t.fc.arr == some 100) = true := by decide
theorem test_arrive_twice : after (.syArrive (.g 0) false) (tOf { tCore with arr := some 90 } memReg) (fun t => fault t == some (0x10, 0, 4, 0, 0)) = true := by decide
theorem test_waitrel : after (.syWaitrel (.g 0) false) (tOf { tCore with arr := some 90 } memReg) (fun t => t.fc.issue == .waiting 101) = true := by decide
theorem test_halt : after (.syHaltShort (.g 0) false) tS (fun t => t.fc.issue == .halted 101) = true := by decide
theorem test_tfence_traps : after (.syTfence (.g 0) false) (tOf { tCore with sp := { vstat := 1, vtrapen := 3 } } tReg) (fun t => fault t == some (0x30, 0, 1, 3, 0)) = true := by decide
theorem test_chk_token_63 : after (.syChk true (.imm 0x3f) false) (tOf { tCore with sp := { notify := 2 ^ 63 } } tReg) (fun t => (fault t).isNone) = true := by decide
theorem test_chk_slip : after (.syChk false (.imm 5) false) tS (fun t => fault t == some (0x10, 0, 2, 5, 100)) = true := by decide
def tPlan : Plan := { handle := 1, ranks := [{ engine := 0, base := 0, words := 1 }], clen := 0 }
def planReg : Region := { tReg with plans := [tPlan] }
theorem test_ctrig_witness : let s := tOf tCore planReg
    firesB (.syCtrig (.imm 1) false) s (.sy .ctrig) (fun x => s.fr.plans.find? (fun p => p.handle == x.b % 2 ^ 32) == some tPlan) = true ∧ tPlan.fired = none ∧
      tPlan.rel = none ∧ after (.syCtrig (.imm 1) false) s (fun t => t.fr.plans.map Plan.rel == [some (100 + s.fr.d.dr)]) = true := by decide
theorem test_ctrig_unknown : after (.syCtrigShort (.g 0) false) tS (fun t => fault t == some (0x22, 0, 0, 4, 0)) = true := by decide
theorem test_ctrig_armed : after (.syCtrig (.imm 1) false) (tOf tCore { tReg with plans := [{ tPlan with rel := some 120, fin := 9 }] })
    (fun t => fault t == some (0x10, 0, 6, 9, 100)) = true := by decide
theorem test_ctrig_twice : after (.syCtrig (.imm 1) false) (tOf tCore { tReg with plans := [{ tPlan with fired := some (100, 7, 0x80, false) }] })
    (fun t => (t.core 7).frec.length == 1 && fault t == some (0x10, 0, 6, 0, 100) && t.fr.plans.map Plan.rel == [none]) = true := by decide
theorem test_guard_beyond_near : after (.syGuard (.imm 4) false) (tOf (withPorts .sy (12 * 2 ^ 26) 1) tReg) (fun t => (fault t).map Prod.fst == some 0x21) = true ∧
    after (.syGuard (.imm 4) false) (tOf (withPorts .sy (11 * 2 ^ 26) 1) tReg) (fun t => (fault t).isNone && t.fc.lands.length == 1) = true := by decide
theorem test_watch : after (.syWatchShort (.g 0) false) tS (fun t => t.fc.lands.map Landing.due == [101]) = true := by decide
theorem test_sysreq : after (.sySysreq (.imm 9) false) (tOf (withPorts .sy 1 2) tReg) (fun t => fault t == some (0x43, 0, 9, 1, 2)) = true := by decide
theorem test_brk : firesB (.syBrk (.imm 9) false) tS (.sy .brk) (fun _ => !(tS.fc.unit .sy).busy 100) = true ∧
    after (.syBrk (.imm 9) false) tS (fun t => fault t == some (0x42, 0, 9, 0, 0)) = true := by decide
/-- A region held at stitch 100 for one resolved cause. -/
def heldReg (code : Nat) : Region := { tReg with d := { tReg.d with state := 3 }, seg := { held := true, holdSc := 100, causes := [{ code := code, cs := 90, resolved := true }] } }
theorem test_break_continues : let s := tOf tCore (heldReg 0x42)
    (s.rgn 0).d.state = 3 ∧ (s.rgn 0).seg.held = true ∧ (∀ k ∈ (s.rgn 0).seg.causes, k.code = 0x42 ∧ k.resolved = true) ∧
      after (.thaw 0) s (fun t => (t.rgn 0).d.state == 2 && (t.rgn 0).clk.sc == 100) = true := by decide
theorem test_phint_is_noted : firesB (.syPhint (.imm 3) false) tS (.sy .phint) (fun _ => true) = true ∧
    after (.syPhint (.imm 3) false) (tOf tCore { tReg with pre := { req := some 50, armed := true } })
      (fun t => t.fr.pre.point == some 100 && t.fr.seg.causes.map Cause.code == [0x72]) = true := by decide
theorem test_cdopen_witness : let s := tOf { tCore with sp := { ltinfo := 2 ^ 17 } } tReg
    s.fr.clk.cdlev = 0 ∧ s.fc.xf.last ≤ 100 ∧ s.fc.mx.muls = [] ∧ s.fc.liveBad 0 = false ∧
    after (.syCdopen (.g 0) false) s (fun t => t.fr.same.map SameCheck.op == [.cdopen] && (fault t).isNone) = true := by decide
theorem test_cdopen_slips : after (.syCdopenShort (.g 0) false) (tOf tCore { tReg with clk := { tReg.clk with cdlev := 4 } }) (fun t => fault t == some (0x10, 0, 5, 0, 4)) = true := by decide
theorem test_cdclose : after (.syCdclose (.g 0) false) tS (fun t => (fault t).map Prod.fst == some 0x10) = true ∧
    after (.syCdcloseShort (.g 0) false) (tOf tCore { tReg with clk := { tReg.clk with cdlev := 1 } }) (fun t => t.fr.same.map SameCheck.op == [.cdclose]) = true := by decide


/-! ## The timetable of a core -/

def codeOf (t : State) (rg : Nat := 0) : List (Nat × Nat) := (t.rgn rg).seg.causes.map (fun q => (q.code, q.cls))
theorem test_bundle_issue : let c := { tCore with imem := [(0, 0x1f)], pc := 0, cur := 9 }
    firstPoison c.imemP 0 (nextBundle c.imem 0 - 0) = none ∧ nextBundle c.imem 0 = 4 ∧
      after (.bundleIssue 0 0) (tOf c tReg) (fun t => t.focus.moves == [0] && t.fc.pc == 4 && t.fc.cur == 0) = true := by decide
theorem test_bundle_fault : let c := { tCore with imem := [(0, 0x2d)], pc := 0 }
    after (.bundleIssue 0 0) (tOf c tReg) (fun t => t.focus.moves == [] && (fault t).map Prod.fst == some 1) = true := by decide
theorem test_idle_end : after (.idleEnd 0 0) (tOf { tCore with issue := .idle 100 } tReg) (fun t => t.fc.issue == .issuing) = true := by decide
theorem test_redirect : after (.branchRedirect 0 0) (tOf { tCore with redir := [⟨100, 0x200⟩, ⟨101, 0x300⟩] } tReg)
    (fun t => t.fc.pc == 0x200 && t.fc.redir == [⟨101, 0x300⟩]) = true := by decide
theorem test_landing : let x : Landing := { due := 100, trig := 99, tgt := .latch .ia0 false 5 1, fl := fDZ }
    let s := tOf { (tCore.setUnit .ia0 { r := 3 }) with lands := [x, { x with due := 101 }] } tReg
    s.fc.lands.filter (fun l => l.due == s.sc) = [x] ∧
      after (.landing 0 0) s (fun t => (t.fc.unit .ia0).r == 5 && t.fc.sp.vstat == fDZ && t.fc.lands.length == 1) = true := by decide
theorem test_bank_load : let a : BankAcc := { due := 100, trig := 99, dst := 0, addr := 0x210, size := 4, kind := .load true }
    let s := tOf { tCore with scr := [(0x210, 0x80), (0x213, 0x80)], banks := [a] } tReg
    (s.scrClaims s.fr 0 100).filter (fun q => q.1 == 0) = [(0, 0, .acc 0)] ∧
      after (.bankSlot 0 0 0) s (fun t => landed t == some (102, .ls, false, 2 ^ 64 - 2 ^ 31 + 0x80)) = true := by decide
theorem test_bank_store : let a : BankAcc := { due := 100, trig := 99, dst := 0, addr := 0x17fffe, size := 2, kind := .store 0x00ab 0 }
    let s := tOf { tCore with scr := [(0x17ffff, 9)], banks := [a] } tReg
    (s.scrClaims s.fr 0 100).filter (fun q => q.1 == 2) = [(2, 0, .acc 0)] ∧
      after (.bankSlot 0 0 2) s (fun t => t.fc.scr == [(0x17fffe, 0xab)]) = true := by decide
theorem test_bank_store_mask : let a : BankAcc := { due := 100, trig := 99, dst := 0, addr := 0x200, size := 256, kind := .store (2 ^ 40 + 7) 2 }
    after (.bankSlot 0 0 0) (tOf { tCore with banks := [a] } tReg) (fun t => t.fc.scr == [(0x205, 1)]) = true := by decide
theorem test_bank_atomic : let a : BankAcc := { due := 100, trig := 99, dst := 0, addr := 0x200, size := 4, kind := .atomRd .add 1 0 }
    after (.bankSlot 0 0 0) (tOf { tCore with scr := [(0x200, 255)], banks := [a] } tReg) (fun t => landed t == some (103, .ls, false, 255) &&
      t.fc.banks == [{ a with due := 101, kind := .atomWr (some 256) 0 }]) = true := by decide
theorem test_bank_conflict : let a : BankAcc := { due := 100, trig := 99, dst := 0, addr := 0x210, size := 4, kind := .load true }
    after (.bankSlot 0 0 0) (tOf { tCore with banks := [a, { a with addr := 0x300 }] } tReg) (fun t => (fault t).map Prod.fst == some 0x11) = true := by decide

/-! ## Beats -/

def sendX : Xfer :=
  { kind := .send, trig := 96, baddr := 0, ctl := 0x1000004, scr := 0x200, rem := 0, len := 4, beat := 6144, read0 := 97, slot0 := 0, land0 := 102,
    data := [(0, ⟨[1, 2, 3, 4], []⟩)], hops := [(0, 0)] }
theorem test_router_flit : let s := tOf { tCore with xf := { xfers := [sendX] } } rtReg
    ∃ e, mget s.fr.routes 1 = some e ∧ e.on = true ∧ e.hopAt sendX 0 100 = some 1 ∧ s.fc.xfer 96 = some sendX ∧
      after (.routerFlit 0 0 96 0) s (fun t => (t.fc.xfer 96).map Xfer.hops == some [(0, 1)]) = true := ⟨_, rfl, by decide⟩
def getX : Xfer :=
  { kind := .getn, trig := 50, baddr := 0, ctl := 4, scr := 0x200, rem := 0x100, len := 4, beat := 6144, read0 := 0, slot0 := 86, land0 := 100,
    data := [(0, ⟨[1, 2, 0, 4], []⟩)] }
theorem test_beat_landing : let s := tOf { tCore with scr := [(0x202, 9), (0x204, 5)], xf := { xfers := [getX] } } tReg
    (s.scrClaims s.fr 0 100).filter (fun q => q.1 == 0) = [(0, Op.dst (.xf .getn), .land 50 0)] ∧
      after (.beatLanding 0 0 0) s (fun t => t.fc.scr == [(0x200, 1), (0x201, 2), (0x203, 4), (0x204, 5)]) = true := by decide
def nearX (k : XfKind) : Xfer := { getX with kind := k, slot0 := 100, land0 := 144, rem := 0x3ffffc }
def nearBankOf (s : State) : Nat := ((s.nearClaims s.fr 100).map (fun q => q.1)).getD 0 0
theorem test_near_get : let x := { nearX .getn with data := [] }
    let s := { tOf { tCore with xf := { xfers := [x] } } tReg with near := [(0x3ffffc, 7)] }
    s.nearClaims s.fr 100 = [(nearBankOf s, Op.dst (.xf .getn), .near 0 50 0)] ∧ after (.nearBankAccess 0 (nearBankOf s)) s (fun t => (t.fc.xfer 50).map Xfer.data == some [(0, ⟨[7, 0, 0, 0], []⟩)]) = true := by decide
theorem test_near_put : let s := { tOf { tCore with xf := { xfers := [nearX .putn] } } tReg with near := [(0x3ffffe, 7)] }
    after (.nearBankAccess 0 (nearBankOf s)) s (fun t => t.near == [(0x3ffffc, 1), (0x3ffffd, 2), (0x3fffff, 4)]) = true := by decide
theorem test_near_atomic : let s := { tOf { tCore with xf := { xfers := [{ nearX (.amon .add 4 1 0) with data := [] }] } } tReg with near := [(0x3ffffc, 255)] }
    after (.nearBankAccess 0 (nearBankOf s)) s (fun t => t.near == [(0x3ffffd, 1)] && (landed t).map (fun q => q.2.2.2) == some 255) = true := by decide

/-! ## Far memory -/

def farX (k : XfKind) : Xfer := { getX with kind := k, slot0 := 100, land0 := 100, rem := 0x50020, leaves := [(5, tLeaf)] }
def farS (k : XfKind) : State := { tOf { tCore with xf := { xfers := [farX k] } } tReg with far := [(3 * 2 ^ 37 + 0x22, 6)] }
theorem test_far_probe : let s := farS .getf
    (farX .getf).farRead = true ∧ s.hdies.lost = [] ∧ after (.farProbe 0 0 50 0) s (fun t => t == s) = true := by decide
theorem test_far_read : let s := tOf { tCore with xf := { xfers := [{ farX .getf with data := [] }] } } tReg
    after (.farRead 0 0 50 0) s (fun t => (t.fc.xfer 50).map (fun x => x.data.map (fun q => q.2.bytes)) == some [[0, 0, 0, 0]]) = true := by decide
theorem test_far_probe_lost : let s := { farS .getf with hdies := { lost := [3] } }
    (∃ r, (farX .getf).runs 0 = [r] ∧ leafProt r.leaf = false ∧ s.hGone r.h = true) ∧ after (.farProbe 0 0 50 0) s (fun t => codeOf t == [(0x71, 0)]) = true :=
  ⟨⟨_, rfl, by decide⟩, by decide⟩
/-- A protected page on the logical H-dies 3, 4 and 5. -/
def pLeaf : BitVec 64 := BitVec.ofNat 64 (3 * 2 ^ 59 + 4 * 2 ^ 54 + 5 * 2 ^ 49 + 2 ^ 42 + 2 ^ 41 + 2)
theorem test_rebuild_decision :
    let x := { farX .getf with leaves := [(5, pLeaf)], bad := [(0, 100)] }
    let s := { tOf { tCore with xf := { xfers := [x] } } tReg with hdies := { lost := [3, 4] } }
    s.beatBlocked x 0 = true ∧
      after (.rebuildDecision 0 0 50 0) s (fun t => codeOf t == [(0x50, 10)] && (t.fc.xfer 50).map Xfer.gone == some [0]) = true := by decide
theorem test_far_effect : let s := farS .putf
    (farX .putf).farWrite = true ∧ s.farConflicts = s ∧ after (.farWriteEffect 0 0 50 0) s (fun t => t.far.map Prod.snd == [1, 2, 4]) = true := by decide
theorem test_far_effect_journalled :
    let s := tOf { tCore with xf := { xfers := [{ farX .putf with jrn := true }] } }
      { tReg with d := { tReg.d with jcap := 64 }, journal := [{ trig := 50, core := 0, lvl := 0, pos := 0, va := 0x50020, eff := 100, len := 4 }] }
    after (.farWriteEffect 0 0 50 0) s (fun t => t.far == [] && t.fr.journal.map (fun e => e.beats.map Prod.fst) == [[0]]) = true := by decide
theorem test_far_byte : (tS.writeFarByte tLeaf 0x20 7 none).farByte tLeaf 0x20 = (7, none) ∧ leafProt tLeaf = false := by decide
theorem test_far_protected : leafProt pLeaf = true ∧ (tS.stripeKeys pLeaf 0 0).Nodup ∧
    (let t := tS.writeFarByte pLeaf 0x100 0x80 none
     t.farByte pLeaf 0x100 = (0x80, none) ∧ Memory.read t.far ((tS.stripeKeys pLeaf 0 0).getD 4 0) = 0x80 ∧
       Memory.read t.far ((tS.stripeKeys pLeaf 0 0).getD 5 0) = 0x1d) := by decide
/-- Stripes of R372 over the field of the polynomial 0x11d: 2 * 0x80 = 0x1d. -/
theorem test_gf : gfMul 2 0x80 = 0x1d ∧ gfMul 8 1 = 8 := by decide
theorem test_stripes_lost :
    rebuildData (fun m => m != 0 && m != 1) (fun m => match m with | 0 => 0 | 1 => 0 | 2 => 0 | 3 => 0 | 4 => 0x81 | _ => 1 ^^^ 0x1d) = some [1, 0x80, 0, 0] := by decide

/-! ## Multiply steps and the scratchpad slots of mx and xf -/

/-- One step of a dense BF16 multiply into tile 2: 1.0 times 2.0; and the second step of a sparse one: 1.0 times 2.0 and 2.0 times 3.0, which the
metadata 12 names as stored positions 0 and 3 of their group. -/
def denseMul : MxMul :=
  { trig := 92, baddr := 0, sparse := false, ctl := 2048, a := tdOf 2 0 1 1 2 0x220, b := tdOf 2 0 1 1 2 0x220, steps := 1, slices := [(1, ([0x80, 0x3f], [0, 0x40]))] }
def sparseMul : MxMul :=
  { trig := 90, baddr := 0, sparse := true, ctl := 2048, a := tdOf 2 0 1 2 4 0x220, b := tdOf 2 0 1 4 8 0x220, steps := 2
    slices := [(1, ([0x80, 0x3f], [0, 0x40, 0, 0])), (2, ([0, 0x40], [0, 0, 0x40, 0x40]))], sides := [(0, 12 :: List.replicate 127 0)] }
theorem test_multiply_step : denseMul.pair = some (.f16 .bf16) ∧ denseMul.ready 1 = true ∧ denseMul.ready 2 = false ∧ tdRows denseMul.a = 1 ∧
    (tCore.mulLand denseMul 1).tileAt 2 0 0 = 0x40000000 ∧ (tCore.mulLand denseMul 1).sp.acfg.get 2 = 0x4000000000000000 := by decide +kernel
theorem test_sparse_step : sparseMul.ready 2 = true ∧ sparseMul.pair = some (.f16 .bf16) ∧ (tCore.mulLand sparseMul 2).tileAt 2 0 0 = 0x41000000 ∧
    ({ sparseMul with bad := [1] } : MxMul).ready 2 = false := by decide +kernel
/-- A move of one row of eight FP32 elements, in its slot. -/
def moveOf (load : Bool) : MxMove := { trig := 99, baddr := 0, load := load, ctl := 2048, td := tdOf 0 0 1 8 32 0x220, tile := 2, rows := 1, cols := 8, m := 1, rm := .rne }
def rowS (load : Bool) : State := tOf { tCore with scr := [(0x222, 0x80), (0x223, 0x3f)], tiles := [(8193, 0x40000000)], mx := { moves := [moveOf load] } } tReg
theorem test_row_load : ((rowS true).scrClaims (rowS true).fr 0 100).filter (fun q => q.1 == 0) = [(0, Op.dst (.mx .load), .row 99 0 0)] ∧
    after (.bankSlot 0 0 0) (rowS true) (fun t => t.fc.lands.map (fun x => (x.due, match x.tgt with | .tile n _ ws => (n, ws.take 2) | _ => (9, []))) ==
      [(102, 2, [(0, 0x3f800000), (1, 0)])]) = true := by decide +kernel
theorem test_row_store : ((rowS false).scrClaims (rowS false).fr 0 100).filter (fun q => q.1 == 0) = [(0, Op.dst (.mx .store), .row 99 0 0)] ∧ (moveOf false).bad = [] ∧
    after (.bankSlot 0 0 0) (rowS false) (fun t => t.fc.scr == [(0x227, 0x40)]) = true := by decide +kernel
theorem test_slice : let m : MxMul := { denseMul with trig := 98, slices := [], b := tdOf 2 0 1 1 2 0x80000 }
    let s := tOf { tCore with scr := [(0x221, 7)], mx := { muls := [m] } } tReg
    (s.scrClaims s.fr 0 100).filter (fun q => q.1 == 0) = [(0, Op.dst (.mx .mma), .slice 98 false 1)] ∧
      after (.bankSlot 0 0 0) s (fun t => t.fc.mx.muls.map MxMul.slices == [[(1, ([0, 7], []))]]) = true := by decide +kernel
theorem test_side : let m : MxMul := { sparseMul with trig := 100, slices := [], sides := [] }
    let s := tOf { tCore with scr := [(1, 7)], mx := { muls := [m] } } tReg
    (s.scrClaims s.fr 0 100).filter (fun q => q.1 == 0) = [(0, Op.dst (.mx .mmas), .side 100 0)] ∧ (m.sideFetch 100).map Prod.fst = some 0 ∧
      after (.bankSlot 0 0 0) s (fun t => t.fc.mx.muls.map (fun q => q.sides.map (fun p => (p.1, p.2.length, p.2.take 2))) == [[(0, 128, [0, 7])]]) = true := by decide +kernel
theorem test_index_list : let x : Xfer := { farX .gathf with trig := 99, ctl := 0x20, td := tdOf 0 2 4 8 64 0x50000, list := 0x400, land0 := 900, slot0 := 800, data := [] }
    let s := tOf { farCore with scr := [(0x400, 2)], xf := { xfers := [x] } } tReg
    (s.scrClaims s.fr 0 100).filter (fun q => q.1 == 0) = [(0, Op.dst (.xf .gathf), .list 99 0)] ∧ s.fc.lookSpans [(0x50080, 32)] = ([(5, tLeaf)], []) ∧
      after (.bankSlot 0 0 0) s (fun t => (t.fc.xfer 99).map Xfer.rows == some [0x50080]) = true := by decide +kernel

/-! ## The checks of mx, cr.wr and xf -/

/-- The code and words 5 to 7 of the record of the fault that an instruction raises. -/
def trapsWith (i : Instr) (s : State) (code w5 : Nat) : Bool := after i s (fun t => match fault t with | some (c, _, a, _, _) => c == code && a == w5 | none => false)
theorem test_cr_wr_traps :
    let s := tOf { withPorts .cr (2 ^ 63 + 65) 0 with mx := { moves := [{ moveOf true with trig := 100, tile := 15 }] } } tReg
    let s2 := tOf { s.fc with units := (withPorts .cr 0 0).units } tReg
    firesB (.crWr (.imm 0x2f) false) s (.cr .wr) (fun x => x.b == 0x2f && operandBad (.cr .wr) s.fr 0 s.fc x.b (2 ^ 63 + 65) == none) = true ∧
      trapsWith (.crWr (.imm 0x2f) false) s 0x24 0x2f = true ∧ trapsWith (.crWr (.imm 0x2f) false) s2 0x13 0x2f = true := by decide +kernel
theorem test_mma_traps : let i : Instr := .immediateMove (.trig (.mx .mma)) 2080 false
    let cfg := 0x8000000000000408
    let b := tdOf 2 0 8 2 4 0x80000
    trapsWith i (tOf (mxCore (tdOf 9 0 8 2 4 0x220) b cfg) tReg) 0x25 2080 = true ∧ trapsWith i (tOf (mxCore (tdOf 2 0 8 2 4 0x220) b 0) tReg) 0x24 2080 = true ∧
      trapsWith i (tOf (mxCore (tdOf 2 0 8 2 4 0x17fff0) b cfg) tReg) 0x21 2080 = true := by decide +kernel
theorem test_mma_bank_clash_and_busy : let i : Instr := .immediateMove (.trig (.mx .mma)) 2080 false
    trapsWith i (tOf (mxCore (tdOf 2 0 8 2 4 0x220) (tdOf 2 0 8 2 4 0x420) 0x8000000000000408) tReg) 0x11 2080 = true ∧
      trapsWith i (tOf { mmaS.fc with mx := { moves := [{ moveOf true with trig := 100 }] } } tReg) 0x13 2080 = true := by decide +kernel
theorem test_rrow_traps : trapsWith (.immediateMove (.trig (.mx .rrow)) (2 + 8 * 16) false) mmaS 0x24 (2 + 8 * 16) = true ∧
    trapsWith (.immediateMove (.trig (.mx .rrow)) 2 false) (tOf { mmaS.fc with mx := { moves := [{ moveOf true with trig := 100 }] } } tReg) 0x13 2 = true := by decide +kernel
theorem test_mx_load_descriptor_traps : let i : Instr := .immediateMove (.trig (.mx .load)) 2048 false
    let check := fun td cfg k => after i (tOf (mxCore td 0 cfg) tReg) (fun t => match fault t with | some (c, _, _, _, w) => c == 0x25 && w / 2 ^ 52 == k | none => false)
    check (tdOf 0 2 1 8 32 0x220) 0x8000000000000401 6 = true ∧ check (tdOf 0 0 1 8 32 0x220) 0x8000000000004401 7 = true ∧ check (tdOf 0 0 2 8 32 0x220) 0x8000000000000401 8 = true := by decide +kernel
theorem test_mx_load_traps : let i : Instr := .immediateMove (.trig (.mx .load)) 2048 false
    trapsWith i (tOf (mxCore (tdOf 0 0 1 8 32 0x220) 0 0x0000000000000401) tReg) 0x24 2048 = true ∧
      trapsWith i (tOf (mxCore (tdOf 0 0 1 8 32 0x17fff0) 0 0x8000000000000401) tReg) 0x21 2048 = true ∧
      trapsWith i (tOf { mxLoadS.fc with mx := { moves := [{ moveOf true with trig := 100 }] } } tReg) 0x13 2048 = true := by decide +kernel
theorem test_near_traps : let i : Instr := .xfGetn false (.imm 0x20) false
    trapsWith i (tOf (xfCore 0x3fffe0 0x200) tReg) 0x22 0x3fffe0 = true ∧ trapsWith i (tOf (xfCore 0x3fff10 0x204) xfReg) 0x20 0x204 = true := by decide +kernel
theorem test_send_traps : let i := fun n : Nat => Instr.longImmediateMove (.trig (.xf .send)) .zeroExt (BitVec.ofNat 32 n) false
    let s := tOf (xfCore 0 0x200) rtReg
    trapsWith (i 0x3000020) s 0x12 3 = true ∧ after (i 0x1000000) s (fun t => t.fc.xf.opens == [] && (fault t).isNone) = true ∧
      trapsWith (i 0x1000020) (tOf (xfCore 0 0x17fff0) rtReg) 0x21 0x17fff0 = true ∧ trapsWith (i 0x1000020) (tOf (xfCore 0 0x204) rtReg) 0x20 0x204 = true := by decide +kernel
theorem test_far_traps : let far := fun (rem : Nat) (w : BitVec 64) => { xfCore rem 0x200 with tce := [(0, mkTce 0x50000 w)] }
    trapsWith (.xfGetf false (.imm 0x20) false) (tOf (far 0x50024 tLeaf) tReg) 0x20 0x50024 = true ∧
      trapsWith (.xfPutf false (.imm 0x20) false) (tOf (far 0x50020 (tLeaf ^^^ BitVec.ofNat 64 (2 ^ 41))) tReg) 0x22 0x50020 = true := by decide +kernel
theorem test_far_journal_overflows : let jr : Region := { tReg with clk := { tReg.clk with cdlev := 1 }, d := { tReg.d with jcap := 32 } }
    trapsWith (.xfPutf false (.imm 0x20) false) (tOf farCore jr) 0x22 0x50020 = true ∧
      (let s := tOf gathCore jr
       after (.xfScatf false (.imm 0x20) false) s (fun t => fault t == some (0x22, 0, 0x50000, 3, 0))) = true := by decide +kernel
theorem test_gathf_traps : trapsWith (.xfGathf false (.imm 0x20) false) (tOf { gathCore with sp := { td := (Vector.replicate 32 0).set 0 (tdOf 0 0 4 8 32 0x50000) } } tReg) 0x25 0 = true ∧
    trapsWith (.xfGathf false (.imm 0x20) false) (tOf (gathCore.setUnit .xf { o0 := 0x104, o2 := 0x400 }) tReg) 0x20 0x104 = true := by decide +kernel

/-! ## Regions -/

/-- Region 0 with the fields of its descriptor, in a state whose core is the small one. -/
def rS (r : Region) : State := tOf tCore r
theorem test_release :
    let s : State := tOf { tCore with issue := .waiting 100, arr := some 90, sp := { guard := Vector.replicate 4 (2 ^ 63 + 1) } }
      { memReg with seg := { mask := 1, relDue := some 100 }, clk := { sc := 100, ssc := 77 } }
    s.allHalted s.fr 100 = false ∧ after (.drawstringRelease 0) s (fun t => t.fr.clk.ssc == 0 && t.fr.clk.sc == 100 && t.fc.arr == none && t.fc.issue == .issuing &&
      t.fc.sp.guard.get 3 == 1) = true := by decide
theorem test_hang : after (.hang 0) (rS { tReg with d := { tReg.d with wdog := 2 ^ 20 }, clk := { sc := 2 ^ 21, ssc := 2 ^ 20 } }) (fun t => t.fr.hung && codeOf t == [(0x60, 0)]) = true := by decide
theorem test_hold : after (.hold 0) (rS { tReg with seg := { holdAt := some 100, causes := [{ code := 0x42, cs := 90 }] } })
    (fun t => t.fr.d.state == 3 && t.fr.seg.held && t.fr.seg.holdSc == 100 && t.fr.clk.sc == 100) = true := by decide
theorem test_thaw : let s := tOf { tCore with frec := [Vector.replicate 8 0], ovf := true } (heldReg 0x73)
    s.fr.canThaw = true ∧ after (.thaw 0) s (fun t => t.fr.d.state == 2 && t.fc.frec == [] && !t.fc.ovf && t.fr.seg.causes == []) = true := by decide
theorem test_no_thaw_of_corruption : (rS (heldReg 0x50)).fr.canThaw = false := by decide
theorem test_debug_request : after (.debugRequest 0) tS (fun t => codeOf t == [(0x73, 0)] && t.fr.seg.holdAt == some (tS.fr.holdFor 100)) = true := by decide
theorem test_debug_request_held : after (.debugRequest 0) (rS (heldReg 0x42)) (fun t => codeOf t == [(0x42, 0), (0x73, 0)] && t.fr.seg.causes.map Cause.cs == [90, 100]) = true ∧
    (let s := rS { tReg with d := { tReg.d with state := 5 } }; after (.debugRequest 0) s (fun t => t == s.onRg 0)) = true := by decide
theorem test_hold_brings_reply : let x : Landing := { due := 110, trig := 90, tgt := .latch .sy false 7 0 }
    after (.hold 0) (tOf { tCore with lands := [x, { x with tgt := .latch .ls false 7 0 }] } { tReg with seg := { holdAt := some 100 } })
      (fun t => t.fc.lands.map Landing.due == [100, 110]) = true := by decide
theorem test_acknowledge : after (.acknowledge 0) (rS { heldReg 0x42 with seg := { held := true, causes := [{ code := 0x42, cs := 1 }, { code := 0x70, cs := 1 }] } })
    (fun t => t.fr.seg.causes.map Cause.resolved == [true, false]) = true := by decide
theorem test_preempt_command : after (.preemptCommand 0) (rS { tReg with d := { tReg.d with save := 0x1000 } }) (fun t => t.fr.pre == { req := some 100 }) = true := by decide
theorem test_preempt_arm : let s := rS { tReg with pre := { req := some 4 } }
    4 + s.fr.d.dr ≤ 100 ∧ after (.preemptArm 0) s (fun t => t.fr.pre.armed) = true := by decide
theorem test_preempt_force : let s := rS { tReg with d := { tReg.d with plimit := 2 ^ 10 }, pre := { req := some 0, armed := true }, clk := { sc := 2 ^ 10 } }
    after (.preemptForce 0) s (fun t => t.fr.pre.forced && codeOf t == [(0x72, 0)]) = true := by decide
def sameReg (o : SameOp) : Region := { tReg with same := [{ op := o, at_ := 90, cores := [] }] }
theorem test_phint_mismatch : (rS (sameReg .phint)).unmatched (sameReg .phint) { op := .phint, at_ := 90, cores := [] } = true ∧
    after (.phintMismatch 0 90) (rS (sameReg .phint)) (fun t => codeOf t == [(0x14, 0)] && t.fr.same == []) = true := by decide
theorem test_cd_mismatch : after (.cdStitchMismatch 0 90) (rS (sameReg .cdclose)) (fun t => (codeOf t).map Prod.fst == [0x10] && t.fr.same == []) = true := by decide
theorem test_region_release : let s := tOf { tCore with issue := .noRegion } { tReg with d := { tReg.d with state := 1 }, pl := { relCyc := 100 } }
    after (.regionRelease 0) s (fun t => t.fr.d.state == 2 && t.fr.clk.sc == 0 && t.fc.issue == .issuing && t.fr.work.next == 100) = true := by decide
theorem test_region_release_late : after (.regionRelease 0) (rS { tReg with d := { tReg.d with state := 1, band := 3 }, pl := { relCyc := 99 } })
    (fun t => t.fr.pl.relCyc == 100 + 2 ^ 20 && (100 + 2 ^ 20, Instr.regionRelease 0) ∈ t.inputs && t.out == [.report 1 0]) = true := by decide
theorem test_region_end : let s := tOf { tCore with issue := .halted 90 } tReg
    s.quiet s.fr 100 = true ∧ after (.regionEnd 0) s (fun t => t.fr.d.state == 5 && t.inputs.map Prod.snd == [.scheduleEnd 0]) = true := by decide
def saveS : State := { (tOf { tCore with scr := [(0x300, 5)] } { heldReg 0x72 with d := { tReg.d with state := 3, save := 0x40000 }, pre := { saving := true } }) with hdies := { own := [(0, 16)] } }
theorem test_preempt_save_witness : saveS.fr.d.state = 3 ∧ saveS.fr.pre.saving = true ∧ saveS.fr.seg.causes.all (fun q => q.code == 0x72) = true ∧
    saveS.ownsAll 0 (fpaDie 0x40000) (fpaOfs 0x40000) saveS.fr.d.saveLen = true := by decide
def savedK : Saved := { clk := { sc := 7 }, cores := [(0, { tCore with scr := [(0x300, 5)] })], forced := true, named := [] }
theorem test_restore_witness : let s := rS { tReg with d := { tReg.d with state := 4 } }
    s.saveLost s.fr.d = none ∧ s.saveMine s.fr.d = true := by decide
theorem test_restore : let s := { rS { tReg with d := { tReg.d with state := 4 }, saved := some savedK } with cores := [] }
    (savedK.cores.map Prod.fst).Nodup ∧ s.farP = [] ∧ after (.restore 0) s (fun t => t.fr.d.state == 2 && t.fc.scr == [(0x300, 5)] && t.fr.saved == none) = true := by decide
def tDom : Domain :=
  { level := 0, open_ := 40, clk := { sc := 40, ssc := 40 }, relDue := none, cores := [(0, { tCore with regs := { g := (Vector.replicate 32 0).set 3 9 }, pc := 0x80 })],
    names := [(0, 8)], near := [], copies := [], unprot := false }
theorem test_rollback : let s := tOf { tCore with imem := [] } { heldReg 0x10 with doms := [tDom], clk := { sc := 100, ssc := 100, cdlev := 1 } }
    s.target s.fr = some (tDom, false) ∧ s.repairK s.fr ≤ 8 ∧
      after (.rollback 0) s (fun t => t.fr.d.state == 2 && t.fr.clk == { sc := 40, ssc := 40, cdlev := 1 } && t.fc.pc == 0x80 && t.fc.readG 3 == 9) = true := by decide
theorem test_journal_apply :
    let run : FarRun := { h := 3, off := 0x20, len := 2, pos := 0, leaf := tLeaf, v := 0x20 }
    let e : JEntry := { trig := 50, core := 0, lvl := 0, pos := 0, va := 0x50020, eff := 60, len := 2, beats := [(0, (60, 2, [run]))] }
    let s := { rS { xfReg with d := { xfReg.d with jcap := 64 }, apply := [e], applyAt := 100, closing := some (100, tDom) } with near := [(0x300020, 7)] }
    s.fr.closing.isSome = true ∧ s.nearP = [] ∧ after (.journalApply 0) s (fun t => t.far == [(3 * 2 ^ 37 + 0x20, 7)] && t.fr.apply == []) = true := by decide

/-! ## Translation and requests -/

def missX (k : XfKind) : Xfer := { farX k with leaves := [], missed := [(5, 90)], data := [] }
theorem test_walk_invalid : let s := tOf { tCore with xf := { xfers := [missX .getf] } } tReg
    s.fc.missing 0x50020 ≠ [] ∧ s.walk 0 0x50020 = none ∧ after (.translationWalk 0 0 0x50020) s (fun t => t == { s with out := [.report 2 0x50020] }) = true := by decide
theorem test_decline_witness :
    let s := tOf { tCore with frec := [(Vector.replicate 8 0).set 0 (2 ^ 63 + 0x70)], xf := { xfers := [missX .getf] } } { tReg with seg := { causes := [{ code := 0x70, cs := 90, tag := 50 }] } }
    s.xlateCause 0 0 0 = some { code := 0x70, cs := 90, tag := 50 } ∧ after (.xlateDecline 0 0 0) s (fun t => (codeOf t).map Prod.fst == [0x70, 0x23]) = true ∧
      after (.xlateRetry 0 0 0) s (fun t => t.inputs.map Prod.snd == [.translationWalk 0 0 0x50000]) = true := by decide
theorem test_tcinv : let s := tOf farCore tReg
    s.onPhys (s.maps.phys 0) = some 0 ∧ after (.tcinvAll (s.maps.phys 0)) s (fun t => t.fc.tce == []) = true ∧
      after (.tcinvVpn (s.maps.phys 0) 5) s (fun t => t.fc.tce == []) = true ∧ after (.tcinvVpn (s.maps.phys 0) 6) s (fun t => t.fc.tce == s.fc.tce) = true := by decide
def sysReg : Region := { heldReg 0x43 with seg := { held := true, holdSc := 100, causes := [{ code := 0x43, cs := 90 }] } }
theorem test_sysreply : let s := tOf { tCore with frec := [(Vector.replicate 8 0).set 0 (2 ^ 63 + 0x43)] } sysReg
    s.regionOf 0 = some 0 ∧ s.fr.sysreq 0 = some { code := 0x43, cs := 90 } ∧ after (.sysreplyWrite (s.maps.phys 0) 77) s (fun t => landed t == some (100, .sy, false, 77)) = true ∧
      after (.sysreplyWrite (tS.maps.phys 0) 77) tS (fun t => t == tS) = true := by decide

/-! ## Plans and engines -/

theorem test_host_trigger : after (.hostTrigger 0 1) (tOf tCore planReg) (fun t => t.fr.plans.map Plan.rel == [some (100 + t.fr.d.dr)]) = true ∧
    after (.hostTrigger 0 1) (tOf tCore { tReg with plans := [{ tPlan with rel := some 120 }] }) (fun t => t.out.length == 1) = true := by decide
theorem test_plan_release : after (.planRelease 0 1) (tOf tCore { tReg with plans := [{ tPlan with rel := some 100, ranks := [{ engine := 0, base := 0, words := 1, fl := 3 }] }] })
    (fun t => t.fr.plans.map Plan.run == [true] && (t.fr.plans.flatMap Plan.ranks).map Rank.fl == [0]) = true := by decide
theorem test_plan_free : (tOf tCore planReg).plansAll.find? (fun q => q.2.handle == 1) = some (0, tPlan) ∧
    after (.planFree 1) (tOf tCore planReg) (fun t => t.fr.plans == []) = true := by decide
theorem test_plan_setup_refused : let s := rS { tReg with d := { tReg.d with state := 3 } }
    (match s.planTry 0 0 256 with | .inl e => e == 9 && after (.planSetup 0 0) s (fun t => t == s) | .inr _ => false) = true := by decide
/-- A plan object of one rank on the region's engine, whose program is one end word. -/
def objS : State := { rS { tReg with d := { tReg.d with state := 3 } } with far := [(0, 1), (20, 96), (24, 1), (111, 0xe0)] }
theorem test_plan_setup : (match objS.planTry 0 0 256 with | .inl _ => false | .inr (_, n) => n == 1) = true ∧
    after (.planSetup 0 0) objS (fun t => t.fr.plans.map Plan.handle == [1]) = true := by decide
def rankOf (r : Rank) : State := { tOf tCore { tReg with plans := [{ tPlan with rel := some 90, run := true, ranks := [r] }] } with focus := { eng := some (1, 0, 0, 0) } }
theorem test_engine_write : let s := { rankOf { engine := 0, base := 0, words := 1, writes := [{ due := 100, window := none, addr := 0x100, chunk := ⟨[1, 0], []⟩ }] } with near := [(0x101, 4)] }
    after (.engineWrite 0 1 0) s (fun t => t.near == [(0x100, 1)]) = true := by decide
theorem test_engine_token : let s := { rankOf { engine := 0, base := 0, words := 1, tokens := [{ due := 100, core := 0, tok := 63, fl := fNV }] } with focus := {} }
    let u := s.modRgn 0 (fun r => { r with work := { stage := 2 } })
    after (.engineWrite 0 1 0) u (fun t => t.fc.sp.notify == 2 ^ 63 && t.fc.sp.vstat == fNV) = true := by decide
def pzS : State := rankOf { engine := 0, base := 0, words := 1, links := [(0, { toCore := false, peer := 0, lam := 30 }), (1, { toCore := true, peer := 0, lam := 40 })] }
theorem test_puzil_witness : pzS.fr.plan 1 = some { tPlan with rel := some 90, run := true, ranks := [pzS.fr.plans.flatMap Plan.ranks |>.headD { engine := 9, base := 0, words := 0 }] } ∧
    pzS.pzRival (pzS.fr.plans.headD tPlan) ((pzS.fr.plans.headD tPlan).rank 0) = false := by decide
def rk0 (t : State) : Rank := (t.fr.plans.headD tPlan).rank 0
/-- A second running plan on the same engine, both of whose windows are open. -/
def rivalS : State := { (State.reset.withFetchWord 128 0xe0000000000000000000000000000000).modRgn 0 (fun r => { r with plans := r.plans ++ [{ r.plans.headD tPlan with handle := 2 }] }) with
  focus := { rg := 0, eng := some (1, 0, 0, 0) } }
theorem test_puzil_void : let s := pzS.modRgn 0 (fun r => r.modRank 1 0 (fun k => { k with void := [(0, 0)] }))
    (rk0 s).void.contains (0, 0) = true ∧ after (.puzilDcmp 0 0 0x100 0x200 0 0) { s with near := [(0x2000, 1)] } (fun t => codeOf t == []) = true := by decide
theorem test_puzil_rival : rivalS.pzRival (rivalS.fr.plans.headD tPlan) ((rivalS.fr.plans.headD tPlan).rank 0) = true ∧ after (.puzilNop 5 9) rivalS (fun t => (codeOf t).map Prod.fst == [0x10]) = true := by decide
theorem test_puzil_poison : after (.puzilDigest 0 0 0x100 0x200 0 0) { pzS with nearP := [(0x2001, ⟨6, 77⟩)] } (fun t => (rk0 t).writes.map (fun w => w.chunk.bytes) == [[]] && codeOf t == [(0x50, 6)]) = true := by decide
theorem test_puzil_nop : after (.puzilNop 0 0) pzS (fun t => t == pzS) = true ∧ after (.puzilEnd 0 0) pzS (fun t => t == pzS) = true ∧
    after (.puzilLoop 0 1 1 1 0 1 0) pzS (fun t => t == pzS) = true := by decide
theorem test_puzil_send : after (.puzilSend 3 0 0x100 0 0 0) pzS (fun t => (rk0 t).inbox.map (fun w => (w.due, w.addr, w.step, w.chunk.bytes.length)) == [(130, 0, 3, 32)]) = true := by decide
theorem test_puzil_recv : let s := rankOf { rk0 pzS with inbox := [{ due := 100, window := none, addr := 0, chunk := ⟨[5], []⟩ }] }
    after (.puzilRecv 4 0 0x100 0 0 0) s (fun t => (rk0 t).inbox == [] && (rk0 t).writes.map (fun w => (w.due, w.step, w.chunk.bytes)) == [(100, 4, [5])]) = true := by decide
theorem test_puzil_copy : after (.puzilCopy 0 0 0x100 0x200 0 0 0 0 false) pzS (fun t => (rk0 t).writes.map (fun w => (w.due, w.chunk.bytes.length)) == [(102, 32)]) = true := by decide
theorem test_puzil_reduce : after (.puzilReduce 0 0 0x100 0x200 0x300 0 0 0 0) pzS (fun t => (rk0 t).writes.map PWrite.due == [104]) = true := by decide
theorem test_puzil_rqadd : after (.puzilRqadd 0 0 0x100 0x200 0x300 0 0 0 0 false 0) pzS (fun t => (rk0 t).writes.map PWrite.due == [106]) = true := by decide
theorem test_puzil_expmax : after (.puzilExpmax 0 0 0x100 0x200 0x300 0 0 false) pzS (fun t => (rk0 t).writes.map PWrite.due == [104]) = true := by decide
theorem test_puzil_binacc : after (.puzilBinacc 0 0 0x100 0x200 0x300 0 0 false) pzS (fun t => (rk0 t).writes.map PWrite.due == [106] || !(t.fr.seg.causes.isEmpty)) = true := by decide
theorem test_puzil_binout : after (.puzilBinout 0 0 0x100 0x200 0 0) pzS (fun t => (rk0 t).writes.map PWrite.due == [106]) = true := by decide
theorem test_puzil_digest : after (.puzilDigest 0 0 0x100 0x200 0 0) pzS (fun t => (rk0 t).writes.map (fun w => (w.due, w.chunk.bytes.length)) == [(104, 8)]) = true := by decide
theorem test_puzil_dcmp : after (.puzilDcmp 0 0 0x100 0x200 0 0) pzS (fun t => t == pzS) = true ∧
    after (.puzilDcmp 0 0 0x100 0x200 0 0) { pzS with near := [(0x2000, 1)] } (fun t => (codeOf t).map Prod.fst == [0x52]) = true := by decide
theorem test_puzil_signal : after (.puzilSignal 0 0 1 5) pzS (fun t => (rk0 t).tokens == [{ due := 140, core := 0, tok := 5, fl := 0 }]) = true := by decide
theorem test_puzil_wait : after (.puzilWait 0 0) pzS (fun t => t == pzS) = true ∧
    after (.puzilWait 0 0) (rankOf { rk0 pzS with tokens := [{ due := 101, core := 0, tok := 5, fl := 0 }] }) (fun t => (codeOf t).map Prod.fst == [0x10]) = true := by decide

/-! ## The region scheduler -/

/-- A launch record of one core in partition 0, on ring 0, as schedule 5, whose image is at far physical address 0. -/
def recW (img : Nat) : List W64 := [BitVec.ofNat 64 (5 * 2 ^ 52 + 2 ^ 16 + 2 ^ 8), BitVec.ofNat 64 img, 1056, 0, 0x2000, 0, 0, 0]
/-- The minimal image of one core: header, and a core entry of zeros. -/
def imgBytes : Mem := [(0, 1), (1, 0x0f), (2, 0x96), (3, 0xb0), (4, 1), (8, 1), (9, 1), (33, 4)]
def schedS (img : Mem) (slots : Map Slot) : State :=
  { State.reset with
    far := img, pcyc := 1000, hdies := { own := [(0, 16)] }
    sched := { slots := slots, parts := [(0, 1), (1, 0x10000000), (2, 1), (4, 0xffff)], rings := (Vector.replicate 8 {}).set 0 { base := 0x4000, log := 4, prod := 1, cons := 0 } }
    boot := { west := { serving := true, boot := 8 }, east := { serving := true, boot := 8 } } }
def waitS : Slot := { state := 2, words := recW 0 }
theorem test_ring : let s := schedS [] []
    ((16 + 2 ^ 32 - (s.ring 0).cons) % 2 ^ 32 ≤ 16) ∧ after (.launchRingProduce 0 16) s (fun t => (t.ring 0).prod == 16) = true ∧
      after (.launchRingProduce 0 17) s (fun t => t == s) = true ∧ after (.launchRingProduce 7 1) s (fun t => t == s) = true := by decide +kernel
/-- The record lies at 0x4000. -/
def ringS (sid : Byte) : State := schedS (imgBytes ++ [(0x4001, 1), (0x4002, 1), (0x4006, sid), (0x4010, 0x20), (0x4011, 4), (0x4021, 0x20)]) []
theorem test_accept : let s := ringS 0x50
    let w := (List.range 8).map (fun i => s.fpaWord (0x4000 + 8 * i))
    s.boot.ready = true ∧ s.recordCode 0 w = none ∧
      after .launchRecordAccept s (fun t => (t.ring 0).cons == 1 && (t.slot 5).state == 2) = true := by decide +kernel
theorem test_accept_refused : let s := schedS [(0x4001, 9)] []
    s.recordCode 0 ((List.range 8).map (fun i => s.fpaWord (0x4000 + 8 * i))) = some 1 ∧
      after .launchRecordAccept s (fun t => (t.ring 0).cons == 1 && t.sched.slots == []) = true := by decide +kernel
theorem test_placement : let s := schedS imgBytes [(5, waitS)]
    s.order = [5] ∧ s.quotaFull 0 = false ∧ s.freeNumber = some 0 ∧ waitS.origins.find? (s.fitsAt 5 waitS (s.imgGrant 0) []) = some (0, 0) ∧
      after .placement s (fun t => (t.slot 5).state == 3 && (t.rgn 0).d.state == 1 && (t.rgn 0).d.wid == 1 && t.inputs.map Prod.snd == [.regionLoad 0]) = true := by decide +kernel
def savedS : State := { schedS [] [(5, { waitS with state := 4 })] with regions := [(0, { tReg with d := { tReg.d with state := 4 }, saved := some savedK })] }
theorem test_placement_saved : savedS.order = [5] ∧ savedS.fitsAt 5 { waitS with state := 4 } [] [] (0, 0) = true ∧
    after .placement savedS (fun t => (t.slot 5).state == 3 && t.inputs.map Prod.snd == [.restore 0]) = true := by decide +kernel
def loadS (img : Mem) : State := { schedS img [(5, { waitS with state := 3 })] with regions := [(0, { tReg with d := { tReg.d with state := 1 }, pl := { sid := 5 } })] }
theorem test_load_bad_image : (loadS []).imageOk ((loadS []).slot 5) ((loadS []).imgHead 0) = false ∧
    after (.regionLoad 0) (loadS []) (fun t => (t.rgn 0).d.state == 0 && (t.slot 5).state == 0 && Memory.read t.far 0x2006 == 4 && Memory.read t.far 0x2007 == 0x80) = true := by decide +kernel
theorem test_load : let s := loadS imgBytes
    let h := s.imgHead 0
    s.imageOk (s.slot 5) h = true ∧ s.imgRoutes (s.rgn 0).d 0 h = some [] ∧ s.grantOk (s.slot 5) (s.rgn 0).d h = true ∧ h.nplan = 0 ∧ s.loadK (s.rgn 0) ≤ 8 ∧
      after (.regionLoad 0) s (fun t => (t.rgn 0).pl.relCyc == 1000 + 2 ^ 16 && (1000 + 2 ^ 16, Instr.regionRelease 0) ∈ t.inputs) = true := by decide +kernel
theorem test_load_bad_route : let s := loadS (imgBytes.take 7 ++ [(20, 1), (33, 4)])
    s.imgRoutes (s.rgn 0).d 0 (s.imgHead 0) = none ∧ after (.regionLoad 0) s (fun t => (t.rgn 0).d.state == 0) = true := by decide +kernel
theorem test_load_too_slow : let s := { loadS imgBytes with maps := { remote := [(0, (1, 300))] } }
    8 < s.loadK (s.rgn 0) ∧ after (.regionLoad 0) s (fun t => (t.rgn 0).d.state == 0 && (t.slot 5).state == 2) = true := by decide +kernel
theorem test_load_bad_grant : let s := loadS (imgBytes ++ [(136, 1)])
    s.imageOk (s.slot 5) (s.imgHead 0) = true ∧ s.grantOk (s.slot 5) (s.rgn 0).d (s.imgHead 0) = false := by decide +kernel
def endS (st reason : Nat) (pu : Nat := 0) : State :=
  { schedS [] [(5, { waitS with state := 3 })] with regions := [(0, { tReg with d := { tReg.d with state := st }, pl := { sid := 5, reason := reason, purge := pu } })], cores := [(0, tCore)] }
theorem test_schedule_end : after (.scheduleEnd 0) (endS 5 0) (fun t => (t.rgn 0).d.state == 0 && (t.slot 5).state == 0 && (t.core 0).issue == .noRegion) = true := by decide +kernel
theorem test_decrement : let s := schedS [] [(5, { waitS with state := 1, count := 1 }), (6, { waitS with state := 1, count := 2 })]
    (s.slot 5).count = 1 ∧ ((s.decrement 5).slot 5).state = 2 ∧ ((s.decrement 6).slot 6).count = 1 ∧ ((s.decrement 7).slot 7).count = -1 := by decide +kernel
theorem test_unpick : after (.unpick 0 3) (endS 2 0) (fun t => (t.rgn 0).d.state == 6 && (t.rgn 0).pl.reason == 3 && (t.core 0).issue == .noRegion &&
    (1000 + 4096, Instr.unpickSweepEnd 0) ∈ t.inputs) = true := by decide +kernel
theorem test_sweep_end : after (.unpickSweepEnd 0) (endS 6 1) (fun t => (t.rgn 0).pl.purge == 1 && (t.rgn 0).pl.purgeAt == 1000) = true := by decide +kernel
theorem test_purge : after (.purgeComplete 0) (endS 6 1 1) (fun t => (t.rgn 0).d.state == 0 && (t.slot 5).state == 0) = true ∧
    after (.purgeComplete 0) (endS 6 0 1) (fun t => (t.slot 5).state == 2) = true := by decide +kernel
theorem test_purge_places_again : let s := (endS 6 5 1).modRgn 0 (fun r => { r with pl := { r.pl with again := true } })
    after (.purgeComplete 0) s (fun t => (t.slot 5).state == 2) = true := by decide +kernel
theorem test_purge_timeout : let s := { endS 6 1 1 with pcyc := 2 ^ 20 }
    let late := s.modRgn 0 (fun r => { r with pl := { r.pl with units := [7] } })
    after (.purgeTimeout 0) late (fun t => (t.rgn 0).pl.purge == 2 && t.out.head? == some (.report 4 0)) = true ∧
      after (.purgeTimeout 0) s (fun t => t.out == []) = true := by decide +kernel
theorem test_cancel : after (.cancel 5) (schedS [] [(5, waitS)]) (fun t => t.slot 5 == {}) = true ∧
    after (.cancel 5) { endS 2 0 with sched := { (endS 2 0).sched with win := { busy := true, op := 5 } } } (fun t => t.sched.win.status == 15 && !t.sched.win.busy) = true ∧
    after (.cancel 9) { endS 2 0 with sched := { (endS 2 0).sched with win := { busy := true, op := 5 } } } (fun t => t.sched.win.status == 14) = true := by decide +kernel
theorem test_heartbeat : after .heartbeat (schedS [] []) (fun t => t.sched.beat == 1000 && (1000 + 2 ^ 20, Instr.heartbeat) ∈ t.inputs) = true := by decide +kernel
theorem test_takeover_witness : let s := { endS 1 0 with pcyc := 2 ^ 24, sched := { (endS 1 0).sched with win := { busy := true, op := 1 } } }
    s.sched.beat + 2 ^ 24 ≤ s.pcyc ∧ s.sched.eastUp = true ∧ s.sched.east = false ∧ s.sched.win.busy = true ∧ s.regions.map (fun q => q.2.d.state) = [1] := by decide +kernel

/-! ## Diagnosis and repair -/

def spS : State := { tS with boot := { west := { serving := true, boot := 8 }, east := { serving := true, boot := 8 } } }
def vA : Verdict := { row := 4, unit := 2 * 2 ^ 32 + 3 * 2 ^ 29 + 5 * 2 ^ 25 + 1 * 2 ^ 22, action := 1, regions := [0] }
def vB : Verdict := { vA with action := 4 }
theorem test_verdicts_agree : spS.boot.west.serving = true ∧ after (.diagnosis (some vA) (some vA)) spS
    (fun t => t.boot.acting == some vA && t.inputs.map Prod.snd == [.coreRetire 2 3 1 5]) = true := by decide
theorem test_verdict_column : (spS.act vB).inputs.map Prod.snd = [.columnDarn 2] ∧
    (spS.act { vA with action := 7, unit := 2 ^ 35 }).inputs.map Prod.snd = [.controlDieLoss .east] := by decide
theorem test_verdict_h_die : let s := { spS with hdies := { lost := [3] } }
    s.hLogical 3 = some 3 ∧ s.hGone 3 = true ∧ (s.act { vA with action := 6, unit := 3 * 2 ^ 31 }).inputs.map Prod.snd = [.hDieDarn 3] := by decide
theorem test_verdicts_differ : after (.diagnosis (some vA) (some vB)) spS (fun t => t.boot.vote == 1 && (100 + 2 ^ 30, Instr.neighbourVoteTimeout) ∈ t.inputs) = true := by decide
def voteS (n : Nat) : State := { spS with boot := { spS.boot with vote := n, neighbour := some 3, west := { spS.boot.west with verdict := some vA }, east := { spS.boot.east with verdict := some vB } } }
theorem test_vote : (voteS 1).ballotFor .east = some vB ∧ after (.neighbourVote .east) (voteS 1) (fun t => t.boot.acting == some vB) = true ∧
    after (.neighbourVote .neither) (voteS 1) (fun t => t.boot.vote == 2 && t.fr.kept && codeOf t == [(0x73, 1)]) = true ∧
    after .neighbourVoteTimeout { voteS 1 with pcyc := 2 ^ 30 } (fun t => t.boot.vote == 2) = true := by decide
theorem test_operator : after (.operatorVerdict .west) (voteS 2) (fun t => t.boot.acting == some vA) = true ∧ (voteS 2).votedRegions = [0, 0] ∧
    (voteS 2).ballotFor .neither = none := by decide
theorem test_correctable : after (.correctableError 7 9) tS (fun t => t.out == [.report 8 7] && t.corr == [(7 * 2 ^ 64 + 9, [100])]) = true := by decide
theorem test_correctable_sixteenth : let s := { tS with corr := [(2 ^ 36 * 2 ^ 64 + 9, List.replicate 15 90)] }
    ((mgetD s.corr (2 ^ 36 * 2 ^ 64 + 9) []).filter (fun c => decide (s.pcyc < c + 2 ^ 32)) ++ [s.pcyc]).length = 16 ∧
      after (.correctableError (2 ^ 36) 9) s (fun t => mget t.corr (2 ^ 36 * 2 ^ 64 + 9) == some []) = true := by decide
theorem test_scrub : after (.scrubPoison 0 6 77 0x40) tS (fun t => codeOf t == [(0x50, 6)] && t.nearP == [(0x40, ⟨6, 77⟩)]) = true := by decide
theorem test_die_lost : tS.dieAt 0 0 = some (0, 0) ∧ after (.cDieLost 0 0) tS (fun t => codeOf t == [(0x50, 15)]) = true ∧
    (∃ u v, tS.dieAt 0 5 = some (u, v) ∧ 8 * u < tS.fr.d.x0 + tS.fr.d.wid) ∧ after (.cDieLost 0 5) tS (fun t => codeOf t == [(0x73, 1)]) = true :=
  ⟨by decide, by decide, ⟨0, 5, by decide⟩, by decide⟩
theorem test_half_lost : xfReg.usesBridge {} 0 = true ∧ after (.mDieHalfLost 0 true) (rS xfReg) (fun t => codeOf t == [(0x50, 6)]) = true := by decide
theorem test_package_loss : after (.packageLoss 1) (rS { tReg with d := { tReg.d with npkg := 2, band := 3 } }) (fun t => codeOf t == [(0x50, 11)]) = true := by decide
/-- A region with a route from its column 7 to its column 8, over the seam east of die 0. -/
def seamReg : Region :=
  { tReg with d := { tReg.d with wid := 16, hgt := 8 }, routes := [(1, { sx := 7, sy := 0, dx := 8, dy := 0, order := 0, ch := 0, width := 24, h := 0, d := 1, f := 0 })] }
theorem test_channel_swap_lossy : seamReg.usesSeam 1 = true ∧ after (.channelSwap 1 true) (rS seamReg) (fun t => codeOf t == [(0x50, 9)] && t.maps.seams == [(1, 1)]) = true := by decide
theorem test_repair_waits : tS.repairUsers (.coreRetire 0 0 2 3) = some [] ∧ tS.repairUsers (.coreRetire 0 0 0 3) = some [0] ∧ tS.repairUsers (.columnDarn 0) = some [0] ∧
    after (.columnDarn 0) tS (fun t => t.maps == tS.maps && codeOf t == [(0x73, 1)]) = true := by decide
theorem test_core_retire : let s := rS (heldReg 0x73)
    s.repairUsers (.coreRetire 0 0 0 3) = some [0] ∧ after (.coreRetire 0 0 0 3) s (fun t => t.maps.retired == [(0, 3)]) = true := by decide
theorem test_core_retire_again : let s := { tS with maps := { tS.maps with retired := [(64 * 11 + 56, 3)] } }
    mget s.maps.retired (64 * 11 + 8 * 7 + 0) = some 3 ∧ after (.coreRetire 11 7 0 3) s (fun t => t == s) = true := by decide
theorem test_column_darn : after (.columnDarn 11) (rS (heldReg 0x73)) (fun t => t.maps.darned == some 11) = true ∧
    after (.columnDarn 4) { tS with maps := { tS.maps with darned := some 11 } } (fun t => t.maps.darned == some 11) = true := by decide
theorem test_remote_darn : tS.repairUsers (.remoteDarn 11 7 none) = none ∧ (tS.regionsThat (fun r => r.onDie 11 7)) = [] ∧
    after (.remoteDarn 11 7 none) tS (fun t => t.maps.excluded == [95]) = true := by decide
theorem test_half_remap : after (.bridgeHalfRemap 0 true) { tS with near := [(5, 1), (33 * 2 ^ 20, 2)] } (fun t => t.near == [(5, 1)] && t.maps.halves == [(0, true)]) = true := by decide
theorem test_h_die_loss : after (.hDieLoss 25) tS (fun t => t.hdies.lost == [25]) = true := by decide
theorem test_h_die_darn : let s := { tS with hdies := { lost := [3] }, far := [(5, 1), (12 * 2 ^ 37 + 1, 9)] }
    s.hGone 3 = true ∧ s.spareFor 3 = some 12 ∧ after (.hDieDarn 3) s (fun t => t.hPhys 3 == 12 && mget t.hdies.rebuild 12 == some 0 && t.far == [(5, 1)]) = true := by decide
theorem test_h_die_no_spare : let s := { tS with hdies := { lost := [3, 12, 25] } }
    s.hGone 3 = true ∧ s.spareFor 3 = none ∧ after (.hDieDarn 3) s (fun t => t.maps == s.maps) = true := by decide
theorem test_h_die_move : let s := { tS with far := [(3 * 2 ^ 37 + 7, 9), (3 * 2 ^ 37 + 2 ^ 30, 8)], hdies := { own := [(128 * 3, 0x10)] } }
    s.hGone 3 = false ∧ s.spareFor 3 = some 12 ∧
      after (.hDieDarnInService 3) s (fun t => t.far == [(3 * 2 ^ 37 + 7, 9), (3 * 2 ^ 37 + 2 ^ 30, 8), (12 * 2 ^ 37 + 7, 9)] && t.hdies.copy == [(3, 12)]) = true := by decide
theorem test_h_die_moved : let s := { tS with hdies := { copy := [(3, 12)] } }
    s.repairUsers (.hDieDarnInService 3) = some [] ∧ mget s.hdies.copy (s.hPhys 3) = some 12 ∧ (s.mapH 3 12).hPhys 3 = 12 := by decide
theorem test_group_rebuild_ends : let s := { tS with hdies := { rebuild := [(3, 0)] } }
    s.wanted 3 = [] ∧ s.nextUnit 3 0 = none ∧ after (.groupRebuild 3) s (fun t => t.hdies.rebuild == []) = true := by decide
theorem test_group_rebuild : let s := { tS with hdies := { rebuild := [(3, 0)], prot := [pLeaf ||| (1 <<< 37)] } }
    (s.nextUnit 3 0).isSome = true ∧ after (.groupRebuild 3) s (fun t => t.hdies.rebuild == [(3, 512)]) = true := by decide
theorem test_control_die_loss : after (.controlDieLoss .west) spS (fun t => !t.boot.west.serving && !t.sched.westUp && t.sched.eastUp && t.inputs.map Prod.snd == [.schedulerTakeover]) = true := by decide

/-! ## The tack plane, the host, links, boot and power -/

/-- A packet of reads (bit 39 clear) or a reply for column `x` and row `y`. -/
def pkt (x y cmd : Nat) (reply west : Bool) : W64 := BitVec.ofNat 64 (x * 2 ^ 60 + y * 2 ^ 56 + (if reply then 2 ^ 39 else 0) + (if west then 2 ^ 38 else 0) + cmd * 2 ^ 32)
def tackS (h : W64) (l : List W64) : State := { tS with tack := [(20, { bufs := [(false, 4, h :: l)] })] }
theorem test_tack_east : let s := tackS (pkt 9 3 0 false false) [0x301018]
    tackNext 20 1 = some 21 ∧ after (.tackPacket 20 false) s (fun t => (mgetD t.tack 20 {}).bufs == [] && (mgetD t.tack 21 {}).bufs.length == 1) = true := by decide
theorem test_tack_full : let s := { tackS (pkt 9 3 0 false false) [] with tack := [(20, { bufs := [(false, 4, [pkt 9 3 0 false false])] }), (21, { bufs := [(false, 3, List.replicate 12 0)] })] }
    12 ≤ (mgetD s.tack 21 {}).held false 3 ∧ after (.tackPacket 20 false) s (fun t => t.tack == s.tack) = true := by decide
theorem test_tack_turn : after (.tackPacket 20 false) (tackS (pkt 1 3 0 false true) []) (fun t => ((mgetD t.tack 20 {}).bufs.map (fun b => (b.1, b.2.1))) == [(true, 4)]) = true := by decide
theorem test_tack_reply : after (.tackPacket 20 false) (tackS (pkt 5 1 0 true false) [7]) (fun t => t.out == [.reply 0 [7]]) = true := by decide
theorem test_tack_read : let s := tackS (pkt 5 1 0 false false) [BitVec.ofNat 64 (2 ^ 40 + 0x301018)]
    (s.winReads 0x301018 1).isSome = true ∧ after (.tackPacket 20 false) s (fun t => ((mgetD t.tack 20 {}).bufs.map (fun b => (b.1, b.2.1, b.2.2.length))) == [(true, 4, 2)]) = true := by decide
/-- The same state with the service rail on. -/
def railed (s : State) : State := { s with boot := { s.boot with rail := true } }
theorem test_register_write : after (.registerWrite 0x301020 [5]) (railed tS) (fun t => t.sched.win.args.get 1 == 5 && t.out == [.reply 0 []]) = true ∧
    after (.registerWrite 0x301021 [5]) (railed tS) (fun t => t.out == [.reply 1 []]) = true ∧ after (.registerWrite 0x301020 [5]) tS (fun t => t == tS) = true := by decide
theorem test_write_wdog : let s := railed (rS (heldReg 0x42))
    after (.registerWrite 16 [0]) s (fun t => t.fr.d.wdogNew == some (2 ^ 20) && t.fr.d.wdog == s.fr.d.wdog) = true ∧
      after (.registerWrite 24 [2 ^ 33 - 1]) s (fun t => t.fr.d.plimNew == some (2 ^ 32)) = true ∧
      after (.registerWrite 16 [0]) (railed tS) (fun t => t == { railed tS with out := [.reply 1 []] }) = true := by decide
theorem test_limits_from_thaw : let s := rS { heldReg 0x42 with d := { (heldReg 0x42).d with wdogNew := some (2 ^ 21) } }
    after (.thaw 0) s (fun t => t.fr.d.wdog == 2 ^ 21 && t.fr.d.wdogNew == none) = true := by decide
theorem test_write_partition : after (.registerWrite 0x100048 [0x5fff]) (railed tS) (fun t => t.partRoot 1 == 0x5000) = true ∧
    after (.registerWrite 0x100068 [0xff]) (railed tS) (fun t => t.part 1 5 == 0x1f) = true ∧
    (railed tS).regions.any (fun r => r.2.d.state != 0 && r.2.d.part == 0) = true ∧ (railed tS).regions.any (fun r => r.2.d.state != 0 && r.2.d.part == 1) = false ∧
    after (.registerWrite 0x100028 [1]) (railed tS) (fun t => t == { railed tS with out := [.reply 1 []] }) = true := by decide
def hostS : State := { spS with boot := { spS.boot with rail := true }, near := [(0x3ffffe, 5)], regions := [] }
theorem test_host_read : hostS.hartUp 0 = true ∧ after (.hostAccess 0 false (0x20000000000 + 0x3ffffe) 1 []) hostS (fun t => t.out == [.reply 0 [5]]) = true := by decide
theorem test_host_read_poison : let s := { hostS with nearP := [(0x3ffffe, ⟨6, 0⟩)] }
    (firstPoison s.nearP 0x3ffffe 1).isSome = true ∧ after (.hostAccess 0 false (0x20000000000 + 0x3ffffe) 1 []) s (fun t => .reply 2 [] ∈ t.out) = true := by decide
theorem test_host_write : after (.hostAccess 0 true (0x20000000000 + 0x3ffffe) 2 [0, 7]) hostS (fun t => t.near == [(0x3fffff, 7)]) = true ∧
    (hostS.memAccess true (0x20000000000 + 0x3fffff) 1 0xff [7]).map (fun q => q.1.near) = some [(0x3ffffe, 5), (0x3fffff, 7)] := by decide
/-- The IOMMU's answer is free: each of its values leads somewhere. -/
theorem test_dma (a : Nat) (h : Config.iommu hostS.free a = none) : exec (.dmaWrite .west a [7]) hostS =
    .next { hostS with free := hostS.free + 1, out := [.report 7 a] } := by
  have hr : hostS.boot.rail = true := rfl
  have hw : hostS.sched.westUp = true := rfl
  have ho : hostS.out = [] := rfl
  simp [exec, execDmaWrite, runDma, State.fresh, State.send, h, hr, hw, ho]
theorem test_host_far : hostS.readFpa 0x2000 1 = some [0] ∧ (hostS.writeFpa 0x2000 [9] 6 0).isSome = true ∧
    after (.hostAccess 0 true (0x100000000000 + 0x2000) 1 [9]) hostS (fun t => t.far == [(0x2000, 9)]) = true := by decide
theorem test_host_far_lost : let s := { hostS with hdies := { lost := [0] } }
    s.readFpa 0x2000 1 = none ∧ after (.hostAccess 0 false (0x100000000000 + 0x2000) 1 []) s (fun t => .reply 2 [] ∈ t.out) = true := by decide
theorem test_dma_without_rail : after (.dmaWrite .west (0x20000000000 + 0x3fffff) [7]) { hostS with boot := { hostS.boot with rail := false } } (fun t => t.near == hostS.near) = true := by decide
theorem test_host_hole : after (.hostAccess 0 false 0xc0000000000 8 []) hostS (fun t => .reply 2 [] ∈ t.out) = true := by decide
def portReg : Region :=
  { tReg with
    d := { tReg.d with npkg := 2, band := 3, wid := 8, hgt := 64 }
    routes := [(1, { sx := 0, sy := 63, dx := 0, dy := 0, dp := 1, order := 1, ch := 0, width := 24, h := 0, d := 2, f := 1 })] }
/-- A region that crosses the north port of column 0. -/
def portS (p : Port) : State := { rS portReg with ports := [(12, p)] }
theorem test_link_down : (portS {}).fr.usesPort 12 = true ∧ after (.linkDown 12) (portS { up := true }) (fun t => !(t.port 12).up && codeOf t == [(0x50, 13)]) = true ∧
    after (.linkDown 12) (portS {}) (fun t => t == portS {}) = true := by decide +kernel
theorem test_counter_exhausted : after (.counterExhausted 12 true) (portS { up := true, ctrIn := 2 ^ 40 }) (fun t => !(t.port 12).up) = true := by decide +kernel
def railS : State := { tS with boot := { rail := true } }
theorem test_link_training : railS.trainable 23 = true ∧ after (.linkTraining 23 100 false true) railS (fun t => (t.port 23).up && (t.port 23).lfab == 106 && decide (1 ≤ (t.port 23).keyset)) = true := by decide +kernel
theorem test_sync_pulse : after (.syncPulse true) tS (fun t => t == tS) = true ∧ after (.syncPulse false) { tS with ports := [(3, { up := true })] } (fun t => !(t.port 3).up) = true := by decide +kernel
/-- The same region with a copy whose chunk comes in by that port. -/
def linkS (p : Port) : State :=
  { rS { portReg with plans := [{ tPlan with
      chans := [(0, 2 ^ 16 + 2 * 12 + 1, 1)], ranks := [{ engine := 0, base := 0, words := 1, writes := [{ due := 105, window := none, addr := 0, chunk := {}, src := some 0 }] }] }] }
    with ports := [(12, p)] }
theorem test_group_witness : let p : Port := { up := true, prot := true }
    (linkS p).port 12 = p ∧ (∀ n data tag, p.tagGood n data tag = false) ∧ (linkS p).crosses (linkS p).fr 12 = true ∧ (linkS p).portUsers 12 = [0] ∧ (portS p).coming (portS p).fr 12 = [] ∧ (linkS p).coming (linkS p).fr 12 ≠ [] ∧
      after (.fabricGroupReceive 12 [] 0) (portS p) (fun t => (t.port 12).ctrIn == 0) = true :=
  ⟨by decide +kernel, fun _ _ _ => rfl, by decide +kernel, by decide +kernel, by decide +kernel, by decide +kernel, by decide +kernel⟩
theorem test_group_integrity : let p : Port := { up := true, prot := true }
    after (.fabricGroupReceive 12 (List.replicate 1280 0) 0) (portS p) (fun t => codeOf t == [] && (t.port 12).ctrIn == 1) = true ∧
      after (.fabricGroupReceive 12 (List.replicate 1280 0) 0) (portS { p with nextIn := some 7, atIn := 1 }) (fun t => t.port 12 == { p with actIn := some 7, epochIn := 1, atIn := 1 }) = true := by
  decide +kernel
theorem test_keys : after (.keyInstall 12 true ⟨7, 5⟩) railS (fun t => t == railS) = true ∧
    after (.keyInstall 12 true ⟨7, 5⟩) { railS with boot := { rail := true, east := { serving := true, boot := 8, session := true } } } (fun t => (t.port 12).nextIn == some 7 && (t.port 12).atIn == 5) = true ∧
    after (.keySwitch 12 true) (portS { nextIn := some 7, ctrIn := 5, atIn := 5, epochIn := 2 }) (fun t => t.port 12 == { actIn := some 7, atIn := 5, epochIn := 3 }) = true ∧
    after (.keySwitch 12 true) (portS { nextIn := some 7, ctrIn := 4, atIn := 5 }) (fun t => t.port 12 == { nextIn := some 7, ctrIn := 4, atIn := 5 }) = true ∧
    after (.keySwitch 12 false) (portS { nextOut := some 7, ctrOut := 5, atOut := 5 }) (fun t => t.port 12 == { actOut := some 7, atOut := 5, epochOut := 1 }) = true := by decide
theorem test_recovery : let s := { tS with boot := { rail := true, verified := true, west := { boot := 2 }, east := { serving := true, boot := 8 } } }
    (s.boot.sp .west).boot = 2 ∧ (s.boot.sp .east).boot = 8 ∧ s.boot.verified = true := by decide
theorem test_recovery_unverified : let s := { tS with boot := { rail := true, west := { boot := 2 }, east := { boot := 2 } } }
    after (.recoveryProvision .west) s (fun t => t.boot.west == { boot := 1 } && t.boot.east == { boot := 2 }) = true := by decide
theorem test_rail_off : let s := { spS with boot := { spS.boot with rail := true, minSvn := 3 }, near := [(1, 1)] }
    after .serviceRailOff s (fun t => t.cores == [] && t.near == [] && t.boot.minSvn == 3 && !t.boot.rail && t.pcyc == 100) = true ∧
      after .coolantFault s (fun t => t.regions == [] && t.boot.minSvn == 3) = true := by decide
theorem test_svn : after (.svnRaise 4) spS (fun t => t.boot.minSvn == 4) = true ∧ (spS.measured 5).map List.length = some 1 ∧
    after (.attestationRequest .east (.measurements 6 false)) spS (fun t => t.out == [.report 9 6]) = true ∧
    after (.attestationRequest .east (.keyExchange [])) spS (fun t => t.boot.east.session && t.out.length == 2) = true ∧
    after (.attestationRequest .east .endSession) spS (fun t => t == spS) = true := by decide
theorem test_ease : let s := rS (heldReg 0x42)
    s.onHot none = [0] ∧ s.onHot (some (2 ^ 37)) = [0] ∧ s.onHot (some (2 ^ 37 + 2 ^ 32)) = [] ∧
    after (.easeUp none) s (fun t => t.fr.d.ease == 1) = true ∧ after (.easeUp (some (2 ^ 37))) tS (fun t => t.fr.d.ease == 0 && codeOf t == [(0x73, 1)]) = true := by decide
theorem test_ease_down : let s := rS { heldReg 0x42 with d := { (heldReg 0x42).d with ease := 1 } }
    s.loadK s.fr ≤ 1 ∧ after (.easeDown (some (2 ^ 37))) s (fun t => t.fr.d.ease == 0) = true := by decide
theorem test_thermal : after (.thermalPreempt (2 ^ 37)) tS (fun t => t.fr.d.state == 6 && t.fr.pl.reason == 5) = true ∧
    after (.thermalPreempt (2 ^ 37)) (rS { tReg with d := { tReg.d with save := 0x40000 } }) (fun t => t.fr.pre.req == some 100) = true := by decide

/-! ## More clauses of the statements about regions, repairs and links -/

theorem test_kept_does_not_thaw : let s := rS { heldReg 0x42 with kept := true }
    (heldReg 0x42).kept = false ∧ (heldReg 0x42).ending = none ∧ after (.thaw 0) s (fun t => t == s.onRg 0) = true := by decide
theorem test_ending_does_not_thaw : let s := rS { heldReg 0x23 with plans := [] }
    s.fr.ending = some 10 ∧ after (.thaw 0) s (fun t => t == s.onRg 0) = true := by decide
theorem test_plan_setup_slow : let s := { objS with maps := { remote := [(0, (1, 300))] } }
    (match s.planTry 0 0 256 with | .inl _ => false | .inr (t, _) => decide (8 < t.loadK (t.rgn 0))) = true := by decide +kernel
theorem test_plan_setup_waits : let s := objS.modRgn 0 (fun r => { r with d := { r.d with state := 2 } })
    (match s.planTry 0 0 256 with | .inl _ => false | .inr (t, _) => decide (t.loadK (t.rgn 0) ≤ 8)) = true ∧
      after (.planSetup 0 0) s (fun t => t.inputs.map Prod.snd == [.planSetup 0 0] && t.fr.plans == []) = true := by decide +kernel
theorem test_puzil_away : let s := pzS.modRgn 0 (fun r => r.modRank 1 0 (fun k => { k with links := k.links.map (fun q => (q.1, { q.2 with away := true })) }))
    (mget (rk0 s).links 0).map Link.away = some true ∧ (rk0 s).awayWin 0x210000 = true ∧
      after (.puzilRecv 4 0 0x100 0 0 0) s (fun t => (rk0 t).writes.map (fun w => (w.due, w.step, w.chunk.bytes.length)) == [(100, 4, 32)]) = true := by decide +kernel
theorem test_reduce_lane : Fmt.ofCode 5 = some (.i .i8) ∧ (pzReduce 5 1 [0xff] [1]).1 = [1] ∧ (pzReduce 5 0 [0xff] [2]).1 = [1] := by decide +kernel
theorem test_verdict_h_die_in_service : spS.hLogical 3 = some 3 ∧ spS.hGone 3 = false ∧
    (spS.act { vA with action := 6, unit := 3 * 2 ^ 31, regions := [] }).inputs.map Prod.snd = [.hDieDarnInService 3] := by decide
theorem test_mv_half_remap : after (.bridgeHalfRemap 100 true) { tS with mv := [(engBase 100 + 5, 1), (engBase 100 + 33 * 2 ^ 20, 2)] }
    (fun t => t.mv == [(engBase 100 + 5, 1)] && t.maps.halves == [(100, true)]) = true := by decide
theorem test_h_die_loss_held : let s := tOf { tCore with xf := { xfers := [farX .getf] } } (heldReg 0x73)
    s.hLogical 3 = some 3 ∧ s.dueAt s.fr 3 = true ∧ after (.hDieLoss 3) s (fun t => t.fr.seg.causes.any (fun q => q.code == 0x71 && q.tag == 3)) = true := by decide
def rebuildS : State := { tS with hdies := { rebuild := [(3, 0)], prot := [pLeaf ||| (1 <<< 37)] } }
theorem test_rebuild_group : (rebuildS.nextUnit 3 0).map (fun q => q.2.2) = some 0 ∧ rebuildS.groupData (pLeaf ||| (1 <<< 37)) 0 255 = some [0, 0, 0, 0] := by decide +kernel
theorem rebuild_keys (e : Nat) : rebuildS.stripeKeys (pLeaf ||| (1 <<< 37)) 0 e =
    [412316860416 + e, 412316860672 + e, 549755813888 + e, 687194767360 + e, 549755814144 + e, 687194767616 + e] := by
  have h : rebuildS.stripeKeys (pLeaf ||| (1 <<< 37)) 0 e = (stripes (pLeaf ||| (1 <<< 37)) 0).map (fun p => rebuildS.hKey p.1 (p.2 + e)) := rfl
  have hs : stripes (pLeaf ||| (1 <<< 37)) 0 = [(3, 0), (3, 256), (4, 0), (5, 0), (4, 256), (5, 256)] := by decide +kernel
  have h3 : rebuildS.maps.hmap.get (Fin.ofNat 24 3) = 3 := by decide +kernel
  have h4 : rebuildS.maps.hmap.get (Fin.ofNat 24 4) = 4 := by decide +kernel
  have h5 : rebuildS.maps.hmap.get (Fin.ofNat 24 5) = 5 := by decide +kernel
  rw [h, hs]
  simp only [List.map_cons, List.map_nil, State.hKey, h3, h4, h5, Nat.zero_add]
  simp
  omega
theorem test_rebuild_keys : ((List.range 256).flatMap (rebuildS.stripeKeys (pLeaf ||| (1 <<< 37)) 0)).Nodup := by
  refine List.pairwise_flatMap.mpr ⟨fun e _ => ?_, List.pairwise_lt_range.imp_of_mem fun ha hb hab x hx y hy => ?_⟩
  · rw [rebuild_keys]; simp
  · rw [rebuild_keys] at hx hy
    simp at hx hy ha hb
    omega
theorem test_host_far_write_lost : let s := { hostS with hdies := { lost := [0] } }
    s.writeFpa 0x2000 [9] 6 0 = none ∧ after (.hostAccess 0 true (0x100000000000 + 0x2000) 1 [9]) s (fun t => t.far == [] && .reply 2 [] ∈ t.out) = true := by decide
theorem test_host_unmapped : after (.hostAccess 0 true 0x40000000000 8 []) hostS (fun t => .reply 2 [] ∈ t.out) = true ∧
    after (.hostAccess 0 false (0x100000000000 + 2 ^ 42) 8 []) hostS (fun t => .reply 2 [] ∈ t.out) = true := by decide
theorem test_link_down_saved : let s := { rS { portReg with d := { portReg.d with state := 4 }, saved := some savedK } with ports := [(12, { up := true })] }
    s.fr.dying = false ∧ s.crosses s.fr 12 = true ∧ after (.linkDown 12) s (fun t => t.fr.dying && t.fr.pl.reason == 5) = true := by decide +kernel
theorem test_spent_port_stays_down : let s := { railS with ports := [(23, { ctrOut := 2 ^ 40 })] }
    (s.port 23).spent = true ∧ after (.linkTraining 23 100 false true) s (fun t => t == s) = true := by decide +kernel
def easeS (st st2 : Nat) : State := { rS { heldReg 0x42 with d := { (heldReg 0x42).d with state := st } } with
  regions := [(0, { heldReg 0x42 with d := { (heldReg 0x42).d with state := st } }), (7, { heldReg 0x42 with d := { (heldReg 0x42).d with state := st2, x0 := 9, ease := 3 } })] }
theorem test_ease_list : after (.easeUp none) (easeS 3 3) (fun t => (t.rgn 0).d.ease == 1 && (t.rgn 7).d.ease == 4) = true ∧
    after (.easeDown none) (easeS 3 3) (fun t => (t.rgn 0).d.ease == 0 && (t.rgn 7).d.ease == 2) = true ∧
    after (.easeUp none) (easeS 3 2) (fun t => (t.rgn 7).d.ease == 3 && t.inputs.map Prod.snd == [.easeUp none]) = true := by decide +kernel

/-! ## The machine as a whole -/

theorem test_reset_meets_invariant : State.reset.memWf := ⟨by decide, by decide, by decide, by decide, by intro q h; cases h⟩

/-! ## Boot -/

/-- A modulus and a signature made for this test outside the model. -/
def bootModulus : Nat := 0xd15a965a0ca057a0d5c8188b84899a1c1d6db793b7df67637a6179355a8034af2cfd695d475dcaa8cda0f4460b6ed56e069b8dd81e235a536c0a59a94b70233ef5fa43d0444f035f5507eed47160450f50f2ec4611cdc54b5294f5445a6489b882ad8f57839fe7535b883010816095903f963ebd3ef9ed496b6db5d2d715c32dbdca6b90ad1a55e06cd16384de96ca4236289169ca26718c47bfb927edb43b44dcea61ca4e92e4c30fd2b4ed5b4a2389a79b4402036c74d326ebc5c5af137439480581ab268159524f10af27a3593d1bdb9e1556a3ee09d18c4de65b5a6e1cf0b3eb38e17d9841cb0da4b9f8a0a0a07a1d4cc856cadcc74c78eedd0f4a8beaf8552ed2ca2beb0b95c7fddd7b4cacfcfe4e1d0d4fa3c831528d6789440ad3163e4b862db6ddd9de94fee64ad67570618f71232aee4f6e5be20b52ea6cfd3a4b39c5981d99d01655aba27ca812b88da98e49fce00ec0ef0c691de8756743acada3aacc944cad0ec30669cb6bb9eb0dd9a98c93442a21a1cfa38e34b692adc7adcf
def bootSignature : Nat := 0x3d5c7673e31b5286d653fe0f5a811729ddad323ebd167a056071aa7a42b3b2b42936fd9901bed6f7588258ce608c487efb5eaa1394a368296c15d51084fbed4ec3c2b9bcec429f8c02b00df5bf1b592e494f752fcf214f64b4524d99948e25426081552ff20422cfd1eb032da24f02ecbb73b7e6196cf4e5f2bf98ab768959a8587ad9fdf600792711308a49c79c4752b1155cda31b4f7ce5daf2ced32d11fb288f345be714b137a3525dcd074b4d24961c264bd49a9aeb1c3b2b6ff4153d6721716f6ea93176cf30ebc11d7b6e7cc40d6d6fafc275203c24902ad8725eb87ebbc8c3cee76ae230856b3fc9508ae7954fbd12550bcfabee2687f9e9fae89723303dc5f713f28be41e19dd157c1c3660366d5f6d69dec634beb797ad852f4b050e35f98ead98f3cdfb833c281e0c39982a733b84312145fb62f8bd0d7ee398258abd8ab2f9a5cb8040745cae8b8c1662f5191ae667a199344d7e3682140554c082beb922b8566bbd97faf20e776c1567585c79930f0c88495a790c09b2d3ddb96
def bootImage : List Byte :=
  toBytes 4 0xb096f1a0 ++ toBytes 4 1 ++ toBytes 8 1024 ++ toBytes 384 bootModulus ++ toBytes 384 bootSignature ++ List.replicate 240 0
def bootS (svn : Nat) : State :=
  { State.reset with boot := { image := bootImage, minSvn := svn, keyHash := 0x62d618779270bc99700013caa39bac77938fe5fdb9f9ed6533099bbddd9d29ad } }
-- The first example of the standard for SHA-256; the tag of the empty message, and a later one, of the standard's test cases for AES-256-GCM.
theorem test_sha256 : sha256 [0x61, 0x62, 0x63] = 0xba7816bf8f01cfea414140de5dae2223b00361a396177a9cb410ff61f20015ad := by decide +kernel
theorem test_gcm : gcmTag 0 0 [] [] = 0x530f8afbc74536b9a963b4f1 ∧
    gcmTag 0 0 [] (toBytesMsb 16 0xcea7403d4d606b6e074ec5d3baf39d18) = 0xd0d1c8a799996bf0265b98b5 := by decide +kernel
theorem test_boot_witness : (bootS 1).boot.accepts (bootS 1).boot.image = true ∧ (bootS 2).boot.accepts (bootS 2).boot.image = false := by decide +kernel
theorem test_boot_refused : let s := { bootS 1 with boot := { image := bootImage.take 1023 } }
    s.boot.accepts s.boot.image = false ∧ after .serviceRailOn s (fun t => t.boot.west == { boot := 2 } && t.boot.rail) = true := by decide +kernel
theorem test_group_good : let s := portS { up := true, prot := true, actIn := some 7 }
    let tag := gcmTag 7 (groupIv 12 0 0) (List.replicate 8 0) [1, 2]
    (s.port 12).tagGood 12 [1, 2] tag = true ∧ groupIv 12 0 0 = 0x600000000000000000000000 ∧ groupIv 3 0 0 = 0x1c0000000000000000000000 ∧
      (s.port 12).tagGood 12 [1, 3] tag = false := by decide +kernel
/-- Whatever port sends it, some tag is good. -/
theorem test_some_tag_is_good (n : Nat) (data : List Byte) : ∃ tag, ({ actIn := some 7 } : Port).tagGood n data tag = true := ⟨_, beq_self_eq_true _⟩

/-! ## Witnesses of clauses about marks, conflicts, ends and rounding -/

/-- Two latches of one unit, the later record in the list the earlier trigger: the order is that of the triggers (R69). -/
theorem test_two_landings : let x : Landing := { due := 100, trig := 99, tgt := .latch .ia0 false 5 0 }
    let y : Landing := { due := 100, trig := 97, tgt := .latch .ia0 false 6 0, fl := fDZ }
    let s := tOf { tCore with lands := [x, y] } tReg
    s.fc.lands.filter (fun l => l.due == s.sc) = [x, y] ∧ ¬x.rank ≤ y.rank ∧
      after (.landing 0 0) s (fun t => (t.fc.unit .ia0).r == 5 && t.fc.sp.vstat == fDZ && t.fc.lands == []) = true := by decide +kernel
theorem test_second_write_back : let x : Landing := { due := 100, trig := 96, tgt := .vback 3 5 0x201 0x40 }
    let s := tOf { tCore with lands := [x, { x with trig := 97, tgt := .vback 3 6 0x280 0x50 }] } tReg
    s.fc.writtenBack 3 = none ∧ after (.landing 0 0) s (fun t => (fault t).map (fun q => (q.1, q.2.2.1)) == some (4, 0xfa3) && t.fc.endStitch.readV 3 == 5) = true := by decide +kernel
theorem test_poisoned_record : let x : Landing := { due := 100, trig := 99, tgt := .latch .ia0 false 5 0 }
    let s := tOf { tCore with lands := [x], regP := [(recKey .ia0 99, ⟨0, 7⟩)] } tReg
    after (.landing 0 0) s (fun t => codeOf t == [(0x50, 0)] && (t.fc.unit .ia0).r == 0 && t.fc.lands == []) = true := by decide +kernel
theorem test_issue_of_poison : let c := { tCore with imem := [(0, 0x1f)], pc := 0 }
    let s := tOf { c with imemP := [(2, ⟨1, 7⟩)] } tReg
    let s2 := tOf { tCore with imem := [(0, 0x71), (1, 0x70), (2, 0x09)], pc := 0, regP := [(7, ⟨0, 9⟩)] } tReg
    after (.bundleIssue 0 0) s (fun t => codeOf t == [(0x50, 1)] && t.focus.moves == []) = true ∧
      after (.bundleIssue 0 0) s2 (fun t => codeOf t == [(0x50, 0)] && t.focus.moves == []) = true := by decide +kernel
theorem test_near_conflict : let s := tOf { tCore with xf := { xfers := [{ nearX .getn with data := [] }, { nearX .getn with trig := 51, data := [] }] } } tReg
    (s.nearClaims s.fr 100).map (fun q => (q.1, q.2.2)) = [(nearBankOf s, .near 0 50 0), (nearBankOf s, .near 0 51 0)] ∧
      after (.nearBankAccess 0 (nearBankOf s)) s (fun t => (fault t).map Prod.fst == some 0x11 && t.fc.xf.xfers.map Xfer.gone == [[0], [0]]) = true := by decide +kernel
theorem test_poisoned_segment :
    let s : State := tOf { tCore with issue := .waiting 100, arr := some 90 } { memReg with seg := { mask := 1, relDue := some 100 }, badP := [(0, ⟨15, 7⟩)] }
    after (.drawstringRelease 0) s (fun t => codeOf t == [(0x50, 15)] && t.fc.arr == some 90) = true := by decide +kernel
/-- A save area with one record of KIND 2, of the revision whose low byte is given. -/
def revS (b : Byte) : State := { rS { tReg with d := { tReg.d with state := 4, save := 0x40000 }, saved := some savedK } with cores := [], far := [(0x48000, 1), (0x48008, 2), (0x48018, b)] }
/-- Whatever this device's revision is, one of two save areas is of another. -/
theorem test_other_revision : (Config.revision ≠ 0 → (revS 0).saveMine (revS 0).fr.d = false) ∧ (Config.revision = 0 → (revS 1).saveMine (revS 1).fr.d = false) := by
  have h0 : (revS 0).fpaWord 0x48018 = 0 := by decide +kernel
  have h1 : (revS 1).fpaWord 0x48018 = 1 := by decide +kernel
  constructor <;> intro h <;> simp only [State.saveMine, List.all_eq_false, List.mem_range]
  · exact ⟨0, by decide +kernel, fun a => h (((beq_iff_eq.mp (List.all_eq_true.mp a (2, 0x48018) (by decide +kernel))).symm.trans h0))⟩
  · exact ⟨0, by decide +kernel, fun a => absurd ((h1.symm.trans (beq_iff_eq.mp (List.all_eq_true.mp a (2, 0x48018) (by decide +kernel)))).trans h) (by decide)⟩
/-- A table whose page at 0x50000 is that of `tLeaf` without W. -/
def roLeaf : BitVec 64 := tLeaf ^^^ BitVec.ofNat 64 (2 ^ 41)
def tableS (k : XfKind) (l : BitVec 64) : State :=
  { tOf { tCore with xf := { xfers := [missX k] } } tReg with
    hdies := { own := [(0, 16), (384, 16)] }, sched := { parts := [(0, 1), (1, 0x1000)] }
    far := [(0x1000, 1), (0x1001, 0x20), (0x2000, 1), (0x2001, 0x30), (0x3000, 1), (0x3001, 0x40)] ++
      ((List.range 8).map (fun i => (0x4028 + i, l.extractLsb' (8 * i) 8))).filter (fun q => q.2 != 0) }
theorem test_walk_denied : let s := tableS .putf roLeaf
    (s.fc.asking 0x50020).map Xfer.trig = [50] ∧ s.walk 0 0x50020 = some roLeaf ∧ leafW roLeaf = false ∧
      after (.translationWalk 0 0 0x50020) s (fun t => codeOf t == [(0x22, 0)] && t.fc.xf.xfers.map Xfer.denied == [[5]]) = true := by decide +kernel
theorem test_walk_found : let s := tableS .getf roLeaf
    s.fc.tceLook 0x50020 = none ∧ after (.translationWalk 0 0 0x50020) s (fun t => t.fc.tceLook 0x50020 == some roLeaf && (t.fc.missing 0x50020).isEmpty) = true := by decide +kernel
theorem test_op_of_poison : let s := { pzS with mvP := [(opKey 0 0, ⟨8, 7⟩)] }
    after (.puzilEnd 0 0) s (fun t => codeOf t == [(0x50, 8)]) = true := by decide +kernel
/-- What an unpick asked for by a command leaves: STATUS 0, and a record of the reason at the origin core. -/
theorem test_unpick_command : let s := { endS 2 0 with sched := { (endS 2 0).sched with win := { busy := true, op := 3 } } }
    after (.unpick 0 1) s (fun t => t.sched.win.status == 0 && !t.sched.win.busy && fault t == some (0x61, 0, 1, 0, 0)) = true := by decide +kernel
/-- DONE of the schedule, at 0x2000, has the mark of a completion word and the schedule's number. -/
theorem test_completion_words : after (.scheduleEnd 0) (endS 5 0) (fun t => t.far == [(0x2004, 0x50), (0x2007, 0x80)]) = true ∧
    after (.purgeComplete 0) (endS 6 1 1) (fun t => t.far == [(0x2004, 0x50), (0x2006, 0x20), (0x2007, 0x80)]) = true := by decide +kernel
/-- Die 0 of row 1: its eastern seam is number 49, and lies in a row of thirteen dies. -/
theorem test_channel_swap_row : let s := rS { seamReg with
      d := { seamReg.d with hgt := 24 }, routes := [(1, { sx := 7, sy := 15, dx := 8, dy := 15, order := 0, ch := 0, width := 24, h := 0, d := 1, f := 0 })] }
    s.fr.usesSeam 49 = true ∧ s.maps.physSeam 49 = 53 ∧ after (.channelSwap 49 true) s (fun t => codeOf t == [(0x50, 9)] && t.maps.seams == [(53, 1)]) = true ∧
      ({ darned := some 0 } : Maps).physSeam 49 = 57 := by decide +kernel
theorem test_control_die_verdict : let s := { rS (heldReg 0x50) with boot := { spS.boot with acting := some { vA with regions := [0] } } }
    after (.controlDieLoss .west) s (fun t => t.boot.acting == none && t.fr.seg.causes.map Cause.judged == [true]) = true := by decide +kernel
theorem test_boot_reports : let s := { bootS 1 with boot := { image := bootImage.take 1023, finds := { west := false } } }
    after .serviceRailOn s (fun t => t.boot.west == { boot := 1 } && t.boot.east == { boot := 2 }) = true := by decide +kernel
theorem test_sum_zero_sign : fAdd .fp32 .rdn (FFmt.fp32.unpack 0x3f800000) (FFmt.fp32.unpack 0xbf800000) = ⟨0x80000000, 0⟩ ∧
    fAdd .fp32 .rne (FFmt.fp32.unpack 0x3f800000) (FFmt.fp32.unpack 0xbf800000) = ⟨0, 0⟩ := by decide +kernel
theorem test_sum_overflows : fAdd .fp32 .rne (FFmt.fp32.unpack 0x7f7fffff) (FFmt.fp32.unpack 0x7f7fffff) = ⟨0x7f800000, fOF ||| fNX⟩ ∧
    (fAdd .fp32 .rtz (FFmt.fp32.unpack 0x7f7fffff) (FFmt.fp32.unpack 0x7f7fffff)).val = 0x7f7fffff := by decide +kernel
theorem test_inexact_quotient_and_root : fDiv .fp32 .rne (FFmt.fp32.unpack 0x3f800000) (FFmt.fp32.unpack 0x40400000) = ⟨0x3eaaaaab, fNX⟩ ∧
    fSqrt .fp32 .rne (FFmt.fp32.unpack 0x40000000) = ⟨0x3fb504f3, fNX⟩ := by decide +kernel
/-- No port is up, so none brings a region to any package. -/
theorem test_remote_cut (pkg : Nat) : tS.remoteOk 0 pkg = false ∧ tS.fr.d.onDie 0 0 = true ∧ tS.fr.dying = false := by
  have h : ∀ n, n < 24 → tS.portCarries 0 n = false := by decide +kernel
  exact ⟨by simpa [State.remoteOk] using fun n hn _ => h n hn, by decide, by decide⟩

end Sys2Proof.Tests
end

section
/-! SUPPORT. The model's integer arithmetic on naturals as arithmetic on words: two's complement, searches for a bit, and the fields of
spec/07_scalar_ops.md R175. -/
namespace Sys2Proof.Machine

/-! ## Two's complement (spec/04_numbers.md R94, R95) -/

theorem sval_toNat {w : Nat} (x : BitVec w) : sval w x.toNat = x.toInt := by
  simp only [sval, BitVec.toInt_eq_toNat_cond, Nat.mod_eq_of_lt x.isLt]
  cases w with
  | zero => simp [BitVec.of_length_zero]
  | succ w =>
    rw [Nat.add_sub_cancel, Nat.pow_succ']
    generalize 2 ^ w = p
    split <;> split <;> omega

theorem wrapTo_eq_toNat (w : Nat) (x : Int) : wrapTo w x = (BitVec.ofInt w x).toNat := by simp [wrapTo]

theorem wrapTo_div_two_pow {w : Nat} (x : BitVec w) (n : Nat) : wrapTo w (x.toInt / (2 ^ n : Nat)) = (x.sshiftRight n).toNat := by
  rw [wrapTo_eq_toNat, BitVec.sshiftRight, Int.shiftRight_eq_div_pow]

/-- The quotient of the smallest value by -1 wraps on both sides. -/
theorem wrapTo_tdiv {w : Nat} (x y : BitVec w) : wrapTo w (x.toInt.tdiv y.toInt) = (x.sdiv y).toNat := by
  rw [wrapTo_eq_toNat]
  exact congrArg _ (BitVec.eq_of_toInt_eq (by simp [BitVec.toInt_ofInt, BitVec.toInt_sdiv]))

theorem wrapTo_tmod {w : Nat} (x y : BitVec w) : wrapTo w (x.toInt.tmod y.toInt) = (x.srem y).toNat := by
  rw [wrapTo_eq_toNat, ← BitVec.toInt_srem, BitVec.ofInt_toInt]

theorem toNat_ofNat_of_le_64 {n : Nat} (h : n ≤ 64) : n = (BitVec.ofNat 64 n).toNat := (Nat.mod_eq_of_lt (by omega)).symm

theorem toNat_eq_zero {w : Nat} {x : BitVec w} : x.toNat = 0 ↔ x = 0 := BitVec.toNat_inj (y := 0)

/-! ## Searching and counting bits (R174: clz, ctz, popc) -/

theorem firstOf64_eq {p : Nat → Bool} {n : Nat} (h : n < 64) (hp : p n = true) (hl : ∀ i, i < n → p i = false) : firstOf64 p = n := by
  have : (List.range 64).find? p = some n := by simp_all
  simp [firstOf64, this]

theorem firstOf64_none {p : Nat → Bool} (h : ∀ i, i < 64 → p i = false) : firstOf64 p = 64 := by
  have : (List.range 64).find? p = none := by simp_all
  simp [firstOf64, this]

theorem firstOf64_le (p : Nat → Bool) : firstOf64 p ≤ 64 := by
  unfold firstOf64
  cases h : (List.range 64).find? p with
  | none => exact Nat.le_refl 64
  | some n => exact Nat.le_of_lt (List.mem_range.mp (List.mem_of_find?_eq_some h))

theorem log2_eq_firstOf64 (b : W64) : (if b.toNat = 0 then 64 else 63 - Nat.log2 b.toNat) = firstOf64 (fun i => b.getLsbD (63 - i)) := by
  split
  next h => exact (firstOf64_none (fun i _ => by simp [toNat_eq_zero.mp h])).symm
  next h =>
    have hlt : Nat.log2 b.toNat < 64 := (Nat.log2_lt h).mpr b.isLt
    refine (firstOf64_eq (by omega) ?_ (fun i hi => ?_)).symm
    · rw [show 63 - (63 - Nat.log2 b.toNat) = Nat.log2 b.toNat by omega]
      exact Nat.testBit_log2 h
    · exact Nat.testBit_lt_two_pow ((Nat.log2_lt h).mp (by omega))

theorem lowBit_eq_find (x w k i : Nat) : lowBit x w k i = ((List.range' i k).find? x.testBit).getD w := by
  induction k generalizing i with
  | zero => rfl
  | succ k ih => cases h : x.testBit i <;> simp [lowBit, List.range'_succ, h, ih]

theorem lowBit_eq_firstOf64 (b : W64) : lowBit b.toNat 64 64 0 = firstOf64 (fun i => b.getLsbD i) := by
  rw [lowBit_eq_find, ← List.range_eq_range']
  rfl

theorem popN_eq_countP (x k : Nat) : popN x k = (List.range k).countP x.testBit := by
  induction k with
  | zero => rfl
  | succ k ih => simp [popN, ih, List.range_succ, List.countP_singleton]

/-! ## The fields of R175 -/

/-- Shifting to the top and back keeps the low `l` bits: with zeros above them, or with copies of the highest of them. -/
theorem ushiftRight_shiftLeft_top (a : W64) {l : Nat} (h : l ≤ 64) : (a <<< (64 - l)) >>> (64 - l) = (a.setWidth l).setWidth 64 := by
  ext i hi
  grind

theorem sshiftRight_shiftLeft_top (a : W64) {l : Nat} (h : l ≤ 64) : (a <<< (64 - l)).sshiftRight (64 - l) = (a.setWidth l).signExtend 64 := by
  ext i hi
  grind [BitVec.msb_eq_getLsbD_last]

theorem allOnes_ushiftRight_toNat {l : Nat} (h : l ≤ 64) : (BitVec.allOnes 64 >>> (64 - l)).toNat = 2 ^ l - 1 := by
  have e : 2 ^ 64 - 1 = 2 ^ (64 - l) * (2 ^ l - 1) + (2 ^ (64 - l) - 1) := by
    rw [Nat.mul_sub, ← Nat.pow_add, Nat.sub_add_cancel h]
    have := Nat.pow_le_pow_right (n := 2) (by decide) (Nat.sub_le 64 l)
    have := Nat.two_pow_pos (64 - l)
    omega
  rw [BitVec.toNat_ushiftRight, BitVec.toNat_allOnes, Nat.shiftRight_eq_div_pow, e, Nat.mul_add_div (Nat.two_pow_pos _),
    Nat.div_eq_of_lt (Nat.sub_lt (Nat.two_pow_pos _) Nat.one_pos), Nat.add_zero]

theorem bitsOf_pos (b : W64) : bitsOf b.toNat 5 0 = (b.extractLsb' 0 6).toNat := by simp [bitsOf]
theorem bitsOf_len (b : W64) : bitsOf b.toNat 12 6 = (b.extractLsb' 6 7).toNat := by simp [bitsOf]

theorem iaBfx_toNat (a b c : W64) : iaBfx a.toNat b.toNat = (iaResult .bfx a b c).toNat := by
  have h64 : min 64 (b.extractLsb' 6 7).toNat ≤ 64 := Nat.min_le_left _ _
  simp only [iaBfx, iaResult, bitsOf_pos, bitsOf_len]
  generalize min 64 (b.extractLsb' 6 7).toNat = l at h64
  have hx (p : Nat) : (a.toNat >>> p) % 2 ^ l = ((a >>> p).setWidth l).toNat := by simp
  rw [hx, ushiftRight_shiftLeft_top _ h64, sshiftRight_shiftLeft_top _ h64, show b.toNat.testBit 13 = b.getLsbD 13 from rfl]
  generalize (a >>> (b.extractLsb' 0 6).toNat).setWidth l = x
  cases b.getLsbD 13 with
  | false => simp [BitVec.toNat_setWidth_of_le h64]
  | true =>
    rw [if_pos rfl, BitVec.toNat_signExtend, BitVec.toNat_setWidth_of_le h64, BitVec.msb_eq_getLsbD_last]
    cases l with
    | zero => simp [BitVec.of_length_zero]
    | succ l => simp [BitVec.getLsbD]; split <;> rfl

theorem iaBfi_toNat (a b c : W64) : iaBfi a.toNat b.toNat c.toNat = (iaResult .bfi a b c).toNat := by
  have h64 : min 64 (b.extractLsb' 6 7).toNat ≤ 64 := Nat.min_le_left _ _
  simp only [iaBfi, iaResult, bitsOf_pos, bitsOf_len, ← allOnes_ushiftRight_toNat h64, ← BitVec.toNat_shiftLeft, ← BitVec.toNat_not,
    ← BitVec.toNat_and, BitVec.toNat_or]
  generalize (BitVec.allOnes 64 >>> (64 - min 64 (b.extractLsb' 6 7).toNat)) <<< (b.extractLsb' 0 6).toNat = m
  congr 1
  have hm : m.toNat = m.toNat % 2 ^ 64 := (Nat.mod_eq_of_lt m.isLt).symm
  rw [BitVec.toNat_and, BitVec.toNat_shiftLeft, hm, ← Nat.and_mod_two_pow, ← hm]
  exact (Nat.mod_eq_of_lt (Nat.and_lt_two_pow _ m.isLt)).symm

/-- The three fields of a pointer do not overlap, so their sum is their union. -/
theorem iaPset_toNat (a b c : W64) : iaPset a.toNat b.toNat c.toNat = (iaResult .pset a b c).toNat := by
  have ha : (a &&& 0x1fffff).toNat = a.toNat % 2 ^ 21 := Nat.and_two_pow_sub_one_eq_mod _ 21
  have hb : ((b &&& 0xffff) <<< 21).toNat = (b.toNat % 2 ^ 16) <<< 21 := by
    rw [BitVec.toNat_shiftLeft, show (b &&& 0xffff).toNat = b.toNat % 2 ^ 16 from Nat.and_two_pow_sub_one_eq_mod _ 16, Nat.shiftLeft_eq]
    omega
  have hc : ((c &&& 0x1fffff) <<< 37).toNat = (c.toNat % 2 ^ 21) <<< 37 := by
    rw [BitVec.toNat_shiftLeft, show (c &&& 0x1fffff).toNat = c.toNat % 2 ^ 21 from Nat.and_two_pow_sub_one_eq_mod _ 21, Nat.shiftLeft_eq]
    omega
  have hlow : (b.toNat % 2 ^ 16) <<< 21 ||| a.toNat % 2 ^ 21 = b.toNat % 2 ^ 16 * 2 ^ 21 + a.toNat % 2 ^ 21 := by
    rw [← Nat.shiftLeft_add_eq_or_of_lt (by omega), Nat.shiftLeft_eq]
  have hlt : b.toNat % 2 ^ 16 * 2 ^ 21 + a.toNat % 2 ^ 21 < 2 ^ 37 := by omega
  simp only [iaResult, BitVec.toNat_or, hc, hb, ha, Nat.or_assoc]
  rw [hlow, ← Nat.shiftLeft_add_eq_or_of_lt hlt, Nat.shiftLeft_eq]
  simp [iaPset, bitsOf, Nat.add_assoc]

/-! ## The table of R174 -/

theorem oneIf_toNat (p : Bool) : (if p then 1 else 0) = (oneIf p).toNat := by cases p <;> rfl

theorem rotateLeft_toNat (a : W64) {n : Nat} (h : n < 64) : ((a.toNat <<< n) ||| (a.toNat >>> (64 - n))) % 2 ^ 64 = (a.rotateLeft n).toNat := by
  rw [BitVec.toNat_rotateLeft, Nat.mod_eq_of_lt h, Nat.or_mod_two_pow]
  exact congrArg _ (Nat.mod_eq_of_lt (Nat.lt_of_le_of_lt (Nat.shiftRight_le _ _) a.isLt))

theorem smin_toNat (a b : W64) : (if b.toInt < a.toInt then b.toNat else a.toNat) = (if a.toInt < b.toInt then a else b).toNat := by
  obtain h | h | h := Int.lt_trichotomy a.toInt b.toInt
  · simp [h, Int.lt_asymm h]
  · simp [BitVec.toInt_inj.mp h]
  · simp [h, Int.lt_asymm h]

/-- The model's value of an ia operation is that of the table. -/
theorem iaValue_toNat (o : IaOp) (a b c : W64) : iaValue o a.toNat b.toNat c.toNat = (iaResult o a b c).toNat := by
  cases o <;> simp only [iaValue, iaResult, sval_toNat, BitVec.slt_iff_toInt_lt, BitVec.ult_iff_lt, BitVec.lt_def]
  case add => rw [BitVec.toNat_add]
  case sub => rw [BitVec.toNat_sub, Nat.add_comm]
  case and => rw [BitVec.toNat_and]
  case or => rw [BitVec.toNat_or]
  case xor => rw [BitVec.toNat_xor]
  case shl => rw [BitVec.toNat_shiftLeft]
  case shr => rw [BitVec.toNat_ushiftRight]
  case sra => exact wrapTo_div_two_pow a _
  case sel => simp only [Ne, toNat_eq_zero, ite_not]; split <;> rfl
  case cmpeq => rw [← oneIf_toNat]; simp [BitVec.toNat_inj]
  case cmplt => exact oneIf_toNat _
  case cmpltu => exact oneIf_toNat _
  case min => exact smin_toNat a b
  case max => split <;> rfl
  case andn => rw [BitVec.toNat_and, BitVec.toNat_not]
  case rotl => exact rotateLeft_toNat a (Nat.mod_lt _ (by decide))
  case minu => split <;> omega
  case maxu => split <;> omega
  case cmpne => rw [← oneIf_toNat]; simp [BitVec.toNat_inj]
  case cmpge => exact oneIf_toNat _
  case cmpgeu => exact oneIf_toNat _
  case bfx => exact iaBfx_toNat a b c
  case bfi => exact iaBfi_toNat a b c
  case clz => rw [log2_eq_firstOf64]; exact toNat_ofNat_of_le_64 (firstOf64_le _)
  case ctz => rw [lowBit_eq_firstOf64]; exact toNat_ofNat_of_le_64 (firstOf64_le _)
  case popc => rw [popN_eq_countP]; exact toNat_ofNat_of_le_64 (Nat.le_trans List.countP_le_length (Nat.le_of_eq List.length_range))
  case pset => exact iaPset_toNat a b c

/-! ## The table of R177 -/

theorem divRem_toNat (signed : Bool) (a b : W64) :
    divRem signed 64 a.toNat b.toNat = ((imQuotient signed a b).toNat, (imRemainder signed a b).toNat, if b = 0 then fDZI else 0) := by
  simp only [divRem, imQuotient, imRemainder, Nat.mod_eq_of_lt a.isLt, Nat.mod_eq_of_lt b.isLt, toNat_eq_zero, sval_toNat, wrapTo_tdiv, wrapTo_tmod]
  by_cases h : b = 0
  · simp only [h, if_true, BitVec.toNat_allOnes]
  · simp only [h, if_false]
    cases signed <;> rfl

theorem extractLsb_high_toNat (x : BitVec 128) : (x.extractLsb' 64 64).toNat = x.toNat >>> 64 := by
  refine Nat.mod_eq_of_lt ?_
  rw [Nat.shiftRight_eq_div_pow]
  exact Nat.div_lt_of_lt_mul x.isLt

theorem mul_toNat (a b : W64) : a.toNat * b.toNat % 2 ^ 64 = (imProduct .mul a b).toNat := (BitVec.toNat_mul a b).symm

theorem mulh_toNat (a b : W64) : wrapTo 128 (sval 64 a.toNat * sval 64 b.toNat) >>> 64 = (imProduct .mulh a b).toNat := by
  rw [sval_toNat, sval_toNat, wrapTo_eq_toNat, BitVec.ofInt_mul]
  exact (extractLsb_high_toNat _).symm

theorem mulhu_toNat (a b : W64) : (a.toNat * b.toNat) >>> 64 = (imProduct .mulhu a b).toNat := by
  have hab : a.toNat * b.toNat < 2 ^ 128 := Nat.mul_lt_mul'' (c := 2 ^ 64) (d := 2 ^ 64) a.isLt b.isLt
  rw [imProduct, extractLsb_high_toNat, BitVec.toNat_mul, BitVec.toNat_setWidth_of_le (by decide), BitVec.toNat_setWidth_of_le (by decide),
    Nat.mod_eq_of_lt hab]

end Sys2Proof.Machine
end

section
/-! SUPPORT. What a trigger of a scalar unit leaves, and the obligations of spec/07_scalar_ops.md on ia, im and tg (R174 to R178, R192). -/
namespace Sys2Proof.Machine

/-! ## A scalar trigger that its unit takes -/

theorem Core.opBusy_eq_busy {o : Op} (ho : ∀ m, o ≠ .mx m) (c : Core) (t : Nat) : c.opBusy o t = (c.unit o.unit).busy t := by
  cases o with
  | mx m => exact absurd rfl (ho m)
  | _ => exact Bool.or_false _

/-- An operation of a unit other than mx, none of whose operand values is illegal, is ready when its unit is free. -/
theorem ready_of_free {o : Op} {x : Trig} {s : State} (ho : ∀ m, o ≠ .mx m)
    (hv : operandBad o s.fr s.focus.core s.fc x.b (s.fc.unit o.unit).o0.toNat = none) (hb : (s.fc.unit o.unit).busy s.sc = false) : Ready o x s :=
  ⟨(Core.opBusy_eq_busy ho _ _).trans hb, hv⟩

theorem Core.landLatch_toNat (c : Core) (u : UnitId) (hi : Bool) (t l : Nat) (y : W64) (fl : Flags) :
    c.landLatch u hi t l y.toNat fl = c.land (lands64 u hi t l y fl) := by
  simp [Core.landLatch, lands64]

theorem State.setFc_land (s : State) (u : UnitId) (b n : Nat) (x : Landing) :
    s.setFc (((s.fc.writePort u 1 b).occupy u s.sc n).land x) = s.took u b n [x] := rfl

theorem State.setFc_land_land (s : State) (u : UnitId) (b n : Nat) (x y : Landing) :
    s.setFc ((((s.fc.writePort u 1 b).occupy u s.sc n).land x).land y) = s.took u b n [x, y] := by
  simp [State.took, Core.took, Core.land]

theorem State.lands_took (s : State) (u : UnitId) (b n : Nat) (ls : List Landing) : (s.took u b n ls).fc.lands = s.fc.lands ++ ls := by
  simp [State.took, Core.took]

theorem Core.o0_toNat (c : Core) (u : UnitId) : (BitVec.ofNat 64 (c.o0 u)).toNat = c.o0 u := Nat.mod_mod _ _
theorem Core.o2_toNat (c : Core) (u : UnitId) : (BitVec.ofNat 64 (c.o2 u)).toNat = c.o2 u := Nat.mod_mod _ _

/-! ## ia -/

theorem startIa_writePort (u : IaUnit) (o : IaOp) (b : Nat) (s : State) :
    startIa u.unit o (s.modFc (fun c => c.writePort u.unit 1 b)) = s.took u.unit b 1 [lands64 u.unit false s.sc 1
      (iaResult o (BitVec.ofNat 64 (s.fc.o0 u.unit)) (BitVec.ofNat 64 b) (BitVec.ofNat 64 (s.fc.o2 u.unit))) 0] := by
  have hw : portWidth u.unit 1 = 64 := by cases u <;> rfl
  rw [← State.setFc_land, ← Core.landLatch_toNat, ← iaValue_toNat, Core.o0_toNat, Core.o2_toNat]
  simp [startIa, Core.writePort_o1' _ _ _ hw]

/-- Settles O10: the value that an ia operation lands is that of the table, operation by operation. -/
theorem iaResults : Obligations.IaResults := by
  unfold Obligations.IaResults
  refine ⟨rfl, fun o => by cases o <;> rfl, rfl, fun i u o x s hf hb => ?_⟩
  rw [exec_ready hf (ready_of_free nofun rfl hb)]
  exact congrArg _ (startIa_writePort u o x.b s)

/-! ## im -/

theorem startIm_multiply {o : ImOp} (ho : o = .mul ∨ o = .mulh ∨ o = .mulhu) (b : Nat) (s : State) :
    startIm o (s.modFc (fun c => c.writePort .im 1 b)) =
      s.took .im b 1 [lands64 .im false s.sc 3 (imProduct o (BitVec.ofNat 64 (s.fc.o0 .im)) (BitVec.ofNat 64 b)) 0] := by
  have hb := Core.writePort_o1' s.fc .im b rfl
  rw [← State.setFc_land, ← Core.landLatch_toNat]
  obtain rfl | rfl | rfl := ho
  · rw [← mul_toNat, Core.o0_toNat]; simp [startIm, hb]
  · rw [← mulh_toNat, Core.o0_toNat]; simp [startIm, hb]
  · rw [← mulhu_toNat, Core.o0_toNat]; simp [startIm, hb]

/-- Quotient, remainder and flags of the ports as a division reads them. -/
theorem divRem_ports (signed : Bool) (c : Core) (b : Nat) :
    divRem signed 64 ((c.writePort .im 1 b).o0 .im) ((c.writePort .im 1 b).o1 .im) =
      let x := BitVec.ofNat 64 (c.o0 .im)
      let y := BitVec.ofNat 64 b
      ((imQuotient signed x y).toNat, (imRemainder signed x y).toNat, if y = 0 then fDZI else 0) := by
  rw [Core.writePort_o0', Core.writePort_o1' c .im b rfl, ← divRem_toNat, Core.o0_toNat, BitVec.toNat_ofNat]

theorem startIm_divide (signed : Bool) (b : Nat) (s : State) :
    startIm (if signed then .div else .divu) (s.modFc (fun c => c.writePort .im 1 b)) =
      let x := BitVec.ofNat 64 (s.fc.o0 .im)
      let y := BitVec.ofNat 64 b
      s.took .im b 20 [lands64 .im false s.sc 20 (imQuotient signed x y) 0,
        lands64 .im true s.sc 20 (imRemainder signed x y) (if y = 0 then fDZI else 0)] := by
  rw [← State.setFc_land_land, ← Core.landLatch_toNat, ← Core.landLatch_toNat]
  cases signed <;> simp only [startIm, State.fc_modFc, State.sc_modFc, State.setFc_modFc, divRem_ports] <;> rfl

theorem startIm_remainder (signed : Bool) (b : Nat) (s : State) :
    startIm (if signed then .rem else .remu) (s.modFc (fun c => c.writePort .im 1 b)) =
      let x := BitVec.ofNat 64 (s.fc.o0 .im)
      let y := BitVec.ofNat 64 b
      s.took .im b 20 [lands64 .im true s.sc 20 (imRemainder signed x y) (if y = 0 then fDZI else 0)] := by
  rw [← State.setFc_land, ← Core.landLatch_toNat]
  cases signed <;> simp only [startIm, State.fc_modFc, State.sc_modFc, State.setFc_modFc, divRem_ports] <;> rfl

/-- Settles O11: products, quotients and remainders are those of the words, and only a zero divisor sets DZI. -/
theorem imResults : Obligations.ImResults := by
  unfold Obligations.ImResults
  refine ⟨rfl, fun i o x s hf hb => ?_⟩
  rw [exec_ready hf (ready_of_free nofun rfl hb)]
  refine congrArg Host.Outcome.next ?_
  cases o with
  | mul => exact startIm_multiply (.inl rfl) x.b s
  | mulh => exact startIm_multiply (.inr (.inl rfl)) x.b s
  | mulhu => exact startIm_multiply (.inr (.inr rfl)) x.b s
  | div => exact startIm_divide true x.b s
  | divu => exact startIm_divide false x.b s
  | rem => exact startIm_remainder true x.b s
  | remu => exact startIm_remainder false x.b s

/-! ## tg -/

/-- The landing record of a tag operation in stitch `t`, `b` the 64 bits of its o1 (R192). A lookup lands the number of the slot that it hits as the
table lists it, of whatever width. -/
def tgLands (o : TgOp) (c : Core) (t b : Nat) : Landing :=
  match o with
  | .look => { due := t + 3, trig := t, tgt := .latch .tg false (BitVec.ofNat 2048 ((tagLook c.tags (b % 2 ^ 52)).getD (2 ^ 64 - 1))) 0 }
  | .read => lands64 .tg false t 3 ((mgetD c.tags (b % 256) 0).extractLsb' 0 64) 0
  | .set => { due := t + 1, trig := t, tgt := .tagSet (b % 256) (BitVec.ofNat 128 (2 ^ 127 + c.o2 .tg % 2 ^ 52 * 2 ^ 64 + c.o0 .tg)) }
  | .inv => { due := t + 1, trig := t, tgt := .tagInv (b % 256) }

theorem tagData_eq_toNat (e : BitVec 128) : tagData e = (e.extractLsb' 0 64).toNat := rfl

theorem startTg_writePort (o : TgOp) (b : Nat) (s : State) :
    startTg o (s.modFc (fun c => c.writePort .tg 1 b)) = s.took .tg b 1 [tgLands o s.fc s.sc (b % 2 ^ 64)] := by
  simp only [startTg, State.fc_modFc, State.sc_modFc, State.setFc_modFc, Core.writePort_o1' s.fc .tg b rfl, Core.writePort_o0', Core.writePort_o2',
    Core.writePort_tags, tagData_eq_toNat, Core.landLatch_toNat]
  cases o with
  | look => rfl
  | read => rfl
  | set => rfl
  | inv => rfl

/-- What a move does that triggers a free tg. -/
theorem exec_tg {i : Instr} {o : TgOp} {x : Trig} {s : State} (hf : Fires i (.tg o) x s) (hb : (s.fc.unit .tg).busy s.sc = false) :
    exec i s = .next (s.took .tg x.b 1 [tgLands o s.fc s.sc (x.b % 2 ^ 64)]) := by
  rw [exec_ready hf (ready_of_free nofun rfl hb)]
  exact congrArg _ (startTg_writePort o x.b s)

theorem tagLook_lt {m : Map (BitVec 128)} {k n l : Nat} (hm : ∀ q ∈ m, q.1 < l) (h : tagLook m k = some n) : n < l := by
  obtain ⟨q, hq, rfl⟩ := Option.map_eq_some_iff.mp h
  exact hm q (List.mem_of_find?_eq_some hq)

theorem tagLook_toNat {m : Map (BitVec 128)} (hm : ∀ q ∈ m, q.1 < 256) (k : Nat) :
    (tagLook m k).getD (2 ^ 64 - 1) = ((tagLook m k).elim (BitVec.allOnes 64) (BitVec.ofNat 64)).toNat := by
  cases h : tagLook m k with
  | none => rfl
  | some n => exact (Nat.mod_eq_of_lt (Nat.lt_trans (tagLook_lt hm h) (by decide))).symm

/-- On a table of the 256 slots of R127 a lookup lands what O15 says; the other tag operations do so on every table (`exec_tg`). -/
theorem exec_tgLook_of_slots {i : Instr} {x : Trig} {s : State} (hf : Fires i (.tg .look) x s) (hb : (s.fc.unit .tg).busy s.sc = false)
    (hs : ∀ q ∈ s.fc.tags, q.1 < 256) :
    exec i s = .next (s.took .tg x.b 1
      [lands64 .tg false s.sc 3 ((tagLook s.fc.tags (x.b % 2 ^ 64 % 2 ^ 52)).elim (BitVec.allOnes 64) (BitVec.ofNat 64)) 0]) := by
  rw [exec_tg hf hb, tgLands, tagLook_toNat hs, BitVec.ofNat_toNat]
  rfl

/-- A core whose tag table lists, under the number 2^64, a valid entry with key 0. No trigger fills such a slot (R127), but it is a state. -/
def wideSlotS : State := { State.reset with cores := [(0, { tags := [(2 ^ 64, BitVec.ofNat 128 (2 ^ 127))] })] }

/-- What a move of an immediate 0 to `tg.look` carries: a lookup of key 0. -/
def zeroKeyTrig : Trig := { o := .tg .look, b := 0, m := 0, gm := BitVec.allOnes 64, z := false, ptr := none }

/-- Refutes O15: it ranges over every state, and in one whose tag table lists a slot of number 2^64 a lookup that hits it lands 2^64 on the 2,048 bits
of tg.r, where the statement has the number cut to 64 bits, which is 0. -/
theorem not_tgResults : ¬ Obligations.TgResults := by
  unfold Obligations.TgResults
  rintro ⟨-, h⟩
  have hf : Fires (.tgLook (.imm 0) false) (.tg .look) zeroKeyTrig wideSlotS := ⟨rfl, _, rfl, rfl, by decide⟩
  have hb : (wideSlotS.fc.unit .tg).busy wideSlotS.sc = false := by decide
  have hslot : tagLook wideSlotS.fc.tags (zeroKeyTrig.b % 2 ^ 64 % 2 ^ 52) = some (2 ^ 64) := by decide
  have hs := Host.Outcome.next.inj ((exec_tg hf hb).symm.trans (h _ _ _ _ hf hb))
  have hl := congrArg (fun t => t.fc.lands) hs
  simp only [State.lands_took, List.append_cancel_left_eq, tgLands, lands64, hslot, Option.getD_some, Option.elim_some, List.cons.injEq, and_true,
    Landing.mk.injEq, LandTo.latch.injEq, true_and] at hl
  simpa [BitVec.getLsbD_ofNat] using congrArg (fun v => v.getLsbD 64) hl

end Sys2Proof.Machine
end

section
/-! SUPPORT. A thaw: when the record of a held region allows it, what it leaves of the region and of the cores, and the obligation of
spec/10_transfer_sync_ops.md on BREAK (R46, R47, R265). -/
namespace Sys2Proof.Machine

/-! ## Updates of several cores and of the region that a step names -/

@[simp] theorem State.rgn_onRg (s : State) (rg n : Nat) : (s.onRg rg).rgn n = s.rgn n := rfl
@[simp] theorem State.core_onRg (s : State) (rg n : Nat) : (s.onRg rg).core n = s.core n := rfl

/-- An update that changes nothing the second time reaches each core of a list once, also where the list names the core more than once. -/
theorem State.core_foldl_modCore {f : Core → Core} (hf : ∀ c, f (f c) = f c) (l : List Nat) (s : State) (id : Nat) :
    (l.foldl (fun s id => s.modCore id f) s).core id = if id ∈ l then f (s.core id) else s.core id := by
  induction l generalizing s with
  | nil => rfl
  | cons k l ih =>
    rw [List.foldl_cons, ih, State.core_modCore]
    by_cases hk : k = id
    · subst hk
      simp [hf]
    · simp [hk, Ne.symm hk]

theorem State.core_clearRecs (s : State) (r : Region) (id : Nat) :
    (s.clearRecs r).core id = if id ∈ r.d.coreIds then { s.core id with frec := [], ovf := false } else s.core id :=
  State.core_foldl_modCore (f := fun c => { c with frec := [], ovf := false }) (fun _ => rfl) _ s id

/-! ## When a region may thaw (R47) -/

/-- No cause that allows a thaw demands an unpick. -/
theorem Cause.killReason_of_mayThaw {c : Cause} (h : c.mayThaw = true) : c.killReason = none := by
  have hc : c.code ≠ 0x60 ∧ c.code ≠ 0x23 ∧ c.code ≠ 0x50 := by
    refine ⟨?_, ?_, ?_⟩ <;> intro e <;> rw [Cause.mayThaw, e] at h <;> exact absurd h (by decide)
  simp [Cause.killReason, hc]

/-- Outside any domain no fault has come again. -/
theorem Region.again_outside_domains {r : Region} (hd : r.doms = []) (hc : r.closing = none) (m : Nat × Nat × Nat) : r.again m = false := by
  simp [Region.again, hd, hc]

/-- Outside any domain a record of causes that allow a thaw does not end its region. -/
theorem Region.ending_eq_none {r : Region} (hm : ∀ c ∈ r.seg.causes, c.mayThaw = true) (hd : r.doms = []) (hc : r.closing = none) :
    r.ending = none := by
  have hk : r.seg.causes.findSome? Cause.killReason = none :=
    List.findSome?_eq_none_iff.mpr fun c h => Cause.killReason_of_mayThaw (hm c h)
  have ha : r.marks.any r.again = false := by simp [Region.again_outside_domains hd hc]
  simp [Region.ending, hk, ha]

theorem Region.canThaw_iff (r : Region) :
    r.canThaw = true ↔ r.seg.held = true ∧ r.kept = false ∧ r.ending = none ∧ ∀ c ∈ r.seg.causes, c.resolved = true ∧ c.mayThaw = true := by
  simp [Region.canThaw, and_assoc]

/-- A region held outside any domain for resolved BREAK causes alone may thaw, unless a vote keeps it. -/
theorem Region.canThaw_of_resolved_breaks {r : Region} (hh : r.seg.held = true) (hk : r.kept = false)
    (hc : ∀ c ∈ r.seg.causes, c.code = 0x42 ∧ c.resolved = true) (hd : r.doms = []) (hcl : r.closing = none) : r.canThaw = true := by
  have hm : ∀ c ∈ r.seg.causes, c.mayThaw = true := fun c h => by
    rw [Cause.mayThaw, (hc c h).1]
    decide
  exact r.canThaw_iff.mpr ⟨hh, hk, Region.ending_eq_none hm hd hcl, fun c h => ⟨(hc c h).2, hm c h⟩⟩

theorem Descr.inForce_of_unwritten {d : Descr} (hw : d.wdogNew = none) (hp : d.plimNew = none) : d.inForce = d := by
  cases d
  cases hw
  cases hp
  rfl

/-! ## THAW (R46) -/

/-- The region after a thaw, `cyc` the cycle of the step. -/
def Region.thawed (r : Region) (cyc : Nat) : Region :=
  { r with d := { r.d.inForce with state := 2 }, seg := { mask := r.seg.mask, relDue := r.seg.relDue }, work := { next := cyc + 1 } }

theorem exec_thaw {s : State} {rg : Nat} (h : (s.rgn rg).canThaw = true) (hs : (s.rgn rg).d.state = 3) :
    exec (.thaw rg) s = .next (((s.onRg rg).clearRecs (s.rgn rg)).setRgn rg ((s.rgn rg).thawed s.pcyc)) := by
  show Host.Outcome.next (runThaw rg (s.onRg rg)) = _
  simp only [runThaw, State.rgn_onRg, h, hs, BEq.rfl, Bool.and_self, if_true]
  rfl

/-- A core after a thaw of a region is as it was, or has lost its records. -/
theorem core_after_thaw (s : State) (rg : Nat) (r x : Region) (id : Nat) :
    (((s.onRg rg).clearRecs r).setRgn rg x).core id = s.core id ∨
      (((s.onRg rg).clearRecs r).setRgn rg x).core id = { s.core id with frec := [], ovf := false } := by
  rw [State.core_setRgn, State.core_clearRecs, State.core_onRg]
  by_cases h : id ∈ r.d.coreIds
  · exact .inr (if_pos h)
  · exact .inl (if_neg h)

/-! ## BREAK (R265) -/

theorem startSy_brk (x : Trig) (s : State) :
    startSy .brk x (s.wrote .sy x.b) =
      (s.wrote .sy x.b).raiseHere { code := 0x42, dst := Op.dst (.sy .brk), baddr := s.fc.cur, w5 := x.b % 2 ^ 16 } := by
  have hb : (s.wrote .sy x.b).fc.o1 .sy % 2 ^ 16 = x.b % 2 ^ 16 := by
    rw [State.wrote, State.fc_modFc, Core.writePort_o1' _ _ _ rfl]
    exact Nat.mod_mod_of_dvd _ (Nat.pow_dvd_pow 2 (by decide))
  have hcur : (s.wrote .sy x.b).fc.cur = s.fc.cur := by simp [State.wrote]
  simp only [startSy, hb, hcur]

/-- Settles O29: a free sy takes every brk, which raises its fault whatever the state holds; and resolved BREAK causes outside any domain neither forbid
the thaw nor end the region. -/
theorem breakAndContinue : Obligations.BreakAndContinue := by
  unfold Obligations.BreakAndContinue
  refine ⟨fun i x s hf hb => ?_, fun s rg hs hh hk hc hd hcl hw hp => ?_⟩
  · rw [exec_ready hf (ready_of_free nofun rfl hb)]
    exact congrArg _ (startSy_brk x s)
  · have hthaw := Region.canThaw_of_resolved_breaks hh hk hc hd hcl
    refine ⟨_, exec_thaw hthaw hs, ?_⟩
    rw [State.rgn_setRgn_same, Region.thawed, Descr.inForce_of_unwritten hw hp]
    exact ⟨rfl, rfl, rfl, rfl, core_after_thaw s rg _ _⟩

end Sys2Proof.Machine
end
